-- ==== Sys2Proof/Word.lean ====
section
/-! DEFINITION. The word types of the block and their plainest arithmetic: 32-bit registers and transactions,
the 16-bit result, bytes of the master read space (00_scope.md rules R6, R7, R8; 20_memory.md rule R60). -/

namespace Sys2Proof

/-- A block register, a register transaction's DATA, a master-port address (R6: `RW = AW = LEN_W = ACC_W = 32`). -/
abbrev Word := BitVec 32

/-- The result `RES` (R6: `RESULT_W = 16`). -/
abbrev Half := BitVec 16

/-- One byte of the master read space (R60). -/
abbrev Byte := BitVec 8

end Sys2Proof
end

