-- ==== Sys2Proof/Machine/Checksum.lean ====
section
/-! DEFINITION. The checksum function and its arithmetic (40_checksum_function.md R120 to R136). -/

namespace Sys2Proof.Machine

/-- The sum of bytes weighted alternately 2^8 and 1, the first byte by 2^8 if `high`. -/
def weightedSum (high : Bool) : List Byte → Nat
  | [] => 0
  | b :: rest => (if high then b.toNat * 2 ^ 8 else b.toNat) + weightedSum (!high) rest

/-- The word sum S(b): an even offset weighs 2^8, an odd one 1 (R120, R121). -/
def wordSum (bytes : List Byte) : Nat := weightedSum true bytes

/-- One fold (R122). -/
def fold16 (v : Nat) : Nat := (v &&& 0xFFFF) + (v >>> 16)

/-- `fold*` for at most `fuel` folds. -/
def foldUpTo : Nat → Nat → Nat
  | 0, v => v
  | fuel + 1, v => if v ≤ 0xFFFF then v else foldUpTo fuel (fold16 v)

/-- The iterated fold (R123). Each fold strictly decreases v while v > 0xFFFF, so v folds are enough. -/
def foldStar (v : Nat) : Nat := foldUpTo v v

/-- The checksum function CSUM (R124). -/
def checksum (bytes : List Byte) : Half := BitVec.ofNat 16 (foldStar (wordSum bytes))

/-- One's-complement addition of two results, `+16` (R127): the host's operation, not the block's. -/
def plus16 (a b : Half) : Half := BitVec.ofNat 16 (foldStar (a.toNat + b.toNat))

/-- Byte swap (R129). -/
def swap16 (v : Half) : Half := v.extractLsb' 0 8 ++ v.extractLsb' 8 8

/-- 32-bit end-around-carry addition (R131), the accumulator's only addition. -/
def addEac (a b : Word) : Word :=
  BitVec.ofNat 32 ((a.toNat + b.toNat) % 2 ^ 32 + (a.toNat + b.toNat) / 2 ^ 32)

/-- One fold of the accumulator (R184). -/
def foldWord (v : Word) : Word := BitVec.ofNat 32 (fold16 v.toNat)

/-- A word read assembled big-endian: the lowest-addressed byte is the most significant (R62, R10). -/
def be32 (b0 b1 b2 b3 : Byte) : Word := b0 ++ (b1 ++ (b2 ++ b3))

/-- The caller's complement (R134): the host's operation, not the block's. -/
def callerComplement (v : Half) : Half := 0xFFFF ^^^ v

end Sys2Proof.Machine
end

