-- ==== Sys2Proof/Config.lean ====
section
/-! DEFINITION. The implementation parameters of 00_scope.md rule R6. A parameter the spec fixes is a constant here;
a parameter the spec marks OPEN is a field of `Platform`, which `State` carries, so that a statement holds for every
choice of it. The values the spec leaves free (93_implementation_defined.md U9) are constants with no body. -/

namespace Sys2Proof

namespace Config

/-- Bytes of the master read space, 2^32, addresses 0 to 0xFFFFFFFF (R60). -/
abbrev masterSpace : Nat := 4294967296

/-- Bytes of the register window, offsets 0x000 to 0xFFF (R30, R60). -/
abbrev windowBytes : Nat := 4096

/-- `UNIT`, the bulk processing unit in bytes (R6). -/
abbrev unit : Nat := 4

/-- FREE VALUE (U9, R44, R240): what a hidden engine field holds after a reset that happens during a run. The spec
says only that it is unspecified. Applied to the counter `State.free`. Log entry 5. -/
opaque freeWord : Nat → Word

end Config

/-- What a region of the master read space is made of: plain memory, or a location whose reads have side effects
(R68, R213 RF2). -/
inductive RegionKind where
  | memory
  | sideEffect
  deriving DecidableEq, Repr

/-- A region of the master read space that the master port can read without a bus error. -/
structure Region where
  base : Nat
  size : Nat
  kind : RegionKind
  deriving DecidableEq, Repr

/-- The OPEN parameters of R6, as plain data: `CSUM_BASE`, `Readable(a)` (an address is readable when some region
holds it; every predicate on the 2^32 addresses is such a list), which readable locations have side effects (R68),
and `COHERENT`. -/
structure Platform where
  csumBase : Nat
  regions : List Region
  coherent : Bool
  deriving DecidableEq, Repr

/-- DESIGN CHOICE (log entry 2): the platform that `State.reset` stands on. The spec leaves it OPEN. -/
def Platform.standard : Platform where
  csumBase := 0
  regions := [{ base := 0, size := 4294967296, kind := .memory }]
  coherent := true

end Sys2Proof
end

