-- ==== Sys2Proof/Syntax.lean ====
section
/-! DEFINITION. The instructions of the block: one constructor of `Instr` per row of spec/opcode_table.json
(30_encoding.md rules R95, R96), the two encoded formats of R90 as `Access`, and the rows of the opcode table. -/

namespace Sys2Proof

/-- Bit W of the access descriptor with the DATA a write carries (R91). -/
inductive Dir where
  | read
  | write (data : Word)
  deriving DecidableEq, Repr

/-- One host transaction at the register interface, or the command it carries. The first 24 constructors are the REG
rows (R95), the last five the CMD rows (R96). `index` is OFFSET[11:2], `offset` is OFFSET[11:0], `op` is CMD[3:0]. -/
inductive Instr where
  /-- RD_ADDR, R152. -/
  | rdAddr
  /-- WR_ADDR, R151. -/
  | wrAddr (data : Word)
  /-- RD_LEN, R154. -/
  | rdLen
  /-- WR_LEN, R153. -/
  | wrLen (data : Word)
  /-- RD_CTRL, R159. -/
  | rdCtrl
  /-- WR_CTRL, R155. DATA is a CMD word. -/
  | wrCtrl (data : Word)
  /-- RD_STATUS, R160. -/
  | rdStatus
  /-- WR_STATUS, R161. -/
  | wrStatus (data : Word)
  /-- RD_RESULT, R162. -/
  | rdResult
  /-- WR_RESULT, R163. -/
  | wrResult (data : Word)
  /-- RSVD (index 5), R164. -/
  | rsvdIndex5 (dir : Dir)
  /-- RSVD (index 6-7), R164. -/
  | rsvdIndex6to7 (index : BitVec 10) (dir : Dir)
  /-- RSVD (index 8-15), R164. -/
  | rsvdIndex8to15 (index : BitVec 10) (dir : Dir)
  /-- RSVD (index 16-31), R164. -/
  | rsvdIndex16to31 (index : BitVec 10) (dir : Dir)
  /-- RSVD (index 32-63), R164. -/
  | rsvdIndex32to63 (index : BitVec 10) (dir : Dir)
  /-- RSVD (index 64-127), R164. -/
  | rsvdIndex64to127 (index : BitVec 10) (dir : Dir)
  /-- RSVD (index 128-255), R164. -/
  | rsvdIndex128to255 (index : BitVec 10) (dir : Dir)
  /-- RSVD (index 256-511), R164. -/
  | rsvdIndex256to511 (index : BitVec 10) (dir : Dir)
  /-- RSVD (index 512-1023), R164. -/
  | rsvdIndex512to1023 (index : BitVec 10) (dir : Dir)
  /-- REFUSED (SIZE 0), R165. -/
  | refusedSize0 (offset : BitVec 12) (dir : Dir)
  /-- REFUSED (SIZE 1), R165. -/
  | refusedSize1 (offset : BitVec 12) (dir : Dir)
  /-- REFUSED (SIZE 3), R165. -/
  | refusedSize3 (offset : BitVec 12) (dir : Dir)
  /-- REFUSED (OFFSET[0] = 1), R165. -/
  | refusedOffsetOdd (offset : BitVec 12) (dir : Dir)
  /-- REFUSED (OFFSET[1:0] = 2), R165. -/
  | refusedOffsetTwo (offset : BitVec 12) (dir : Dir)
  /-- NOP, R156. -/
  | nop
  /-- START, R157. -/
  | start
  /-- CMD_RSVD (OP 2-3), R158. -/
  | cmdRsvd2to3 (op : BitVec 4)
  /-- CMD_RSVD (OP 4-7), R158. -/
  | cmdRsvd4to7 (op : BitVec 4)
  /-- CMD_RSVD (OP 8-15), R158. -/
  | cmdRsvd8to15 (op : BitVec 4)
  deriving DecidableEq, Repr

/-- One transaction in the queue of the register interface, in one of the two formats of R90.
`reg`: the 15-bit access descriptor of R91, with the DATA that a write carries (a read carries none, and the field is
then ignored). `cmd`: a write to CTRL given by its CMD word alone, as the syntax `WR CTRL, START` of R99 gives it
(log entry 3). -/
inductive Access where
  | reg (desc : BitVec 15) (data : Word)
  | cmd (word : Word)
  deriving DecidableEq, Repr

/-- Why a word is no encoded transaction at all. -/
inductive Reject where
  /-- No format of R90 has this many bits. -/
  | noSuchWidth (nbits : Nat)
  /-- The word has a bit above its format's bits. -/
  | bitsAboveFormat (word : Nat)
  deriving DecidableEq, Repr

/-- The encoded formats of R90. -/
inductive Format where
  | reg
  | cmd
  deriving DecidableEq, Repr

/-- A row of the opcode map (R95, R96): a word of that format is of the row when its masked bits are the match. -/
structure OpcodeRow where
  mnemonic : String
  format : Format
  matchBits : Nat
  mask : Nat
  deriving DecidableEq, Repr

end Sys2Proof
end

