-- ==== Sys2Proof/Machine/State.lean ====
section
/-! DEFINITION. The state of the block and of what stands around it, as plain data: the host-visible registers
(10_state.md R30 to R36), the hidden engine fields (R38), the pending transaction and the queue behind it (R41), the
master read space (20_memory.md R60), the platform's OPEN parameters (00_scope.md R6), the recorded model faults and
the refusal mark (10_state.md R43), and the outside world's choices. -/

namespace Sys2Proof.Machine

/-- The hidden engine fields (R38). `swap` is eng.SWAP, one bit. -/
structure Engine where
  ptr : Word
  rem : Word
  acc : Word
  swap : Bool
  deriving DecidableEq, Repr

/-- The engine's step kinds (42_engine.md R181). -/
inductive StepKind where
  | byte
  | word
  | fold
  | finish
  deriving DecidableEq, Repr

/-- Who moves next, with what comes in from outside (42_engine.md R180, 41_host_interface.md R166; log entry 1). -/
inductive Turn where
  /-- The register interface takes the transaction at the head, or tries a held one again (R166). -/
  | host
  /-- The engine takes its step, if it has one (R180). -/
  | engine
  /-- The platform resets the block (R240), together with the bus path or not (R241, U10). Power that is removed and
  comes back is the same event (60_exceptions.md R224). -/
  | reset (busPath : Bool)
  /-- A bus transaction is issued at a host address; SIZE as in R91. -/
  | issue (size : BitVec 2) (write : Bool) (hostAddr : Nat) (data : Word)
  /-- A write of one byte by any agent is performed at the master port (20_memory.md R71). -/
  | agentWrite (address : Word) (value : Byte)
  /-- The host's processor stores one byte (R74, R79). -/
  | hostStore (address : Word) (value : Byte)
  /-- The host cleans that byte of its cache to memory (R79). -/
  | hostClean (address : Word)
  deriving DecidableEq, Repr

/-- Why a run stops with a model fault (60_exceptions.md R211): the behaviours the source calls undefined. -/
inductive Fault where
  /-- MF1 UNREADABLE, raised by a BYTE or WORD step (R182, R183) with the step's address, when a byte it would read is
  not readable. Safe: the run stops where the hardware's behaviour is unspecified (U1). -/
  | unreadable (address : Word)
  /-- MF2 BUFFER_WRAP, raised by START (R157) with ADDR and LEN when ADDR + LEN > 2^32. Safe: the run stops where the
  hardware's behaviour is unspecified (U2). -/
  | bufferWrap (addr len : Word)
  deriving DecidableEq, Repr

/-- Why the model gives a transaction no meaning (60_exceptions.md R213). -/
inductive Refusal where
  /-- Raised by an arm of `exec` whose instruction has no meaning yet; no arm does. Safe: the run stops. -/
  | notModelled (mnemonic : String)
  /-- RF1 ILLEGAL_ACCESS, raised by the REFUSED rows (R165). Safe: the spec does not define what the hardware does
  (U3). -/
  | illegalAccess
  /-- RF2 SIDE_EFFECT_BUFFER, raised by START over a location whose reads have side effects (R68, U6). Safe: the spec
  does not say what the device does. -/
  | sideEffectBuffer
  deriving DecidableEq, Repr

/-- The master read space, sparse: strictly rising addresses, and no entry for a byte that reads as 0. -/
abbrev Memory := List Host.Cell

structure State where
  /-- ADDR (R31). -/
  addr : Word
  /-- LEN (R32). -/
  len : Word
  /-- STATUS.BUSY (R34, R40). -/
  busy : Bool
  /-- STATUS.DONE (R34, R40). -/
  done : Bool
  /-- RESULT.RES (R35). -/
  res : Half
  /-- The hidden engine fields (R38). -/
  eng : Engine
  /-- The transaction at the register interface, if one is there (R41). -/
  pending : Option Access
  /-- The transactions behind it, in the order received (R41, R166). -/
  queue : List Access
  /-- The host agent waits for a transaction that a reset discarded (U10). -/
  hostStuck : Bool
  /-- The master read space (20_memory.md R60). -/
  mem : Memory
  /-- Host stores not yet visible at the master port: strictly rising addresses (R74, R79). -/
  hostCache : List Host.Cell
  /-- The OPEN parameters (00_scope.md R6). No step changes them. -/
  platform : Platform
  /-- MODEL'S OWN: the DATA that completed reads returned, oldest first (R91). -/
  reads : List Word
  /-- MODEL'S OWN: whose turn it is, the next first. -/
  script : List Turn
  /-- The recorded model faults (R43). -/
  faults : List Fault
  /-- The refusal mark, with the refusal that set it (R43). -/
  refusalMark : Option Refusal
  /-- MODEL'S OWN: how many free values have been drawn (log entry 5). -/
  free : Nat
  deriving DecidableEq, Repr

/-- What a turn comes to: an instruction to run on a state, or an outcome already. -/
inductive Move where
  | run (i : Instr) (s : State)
  | did (o : Host.Outcome State Fault Refusal)

/-- The state after reset on a platform (R44). The engine fields are unspecified there: 0 is a DESIGN CHOICE (log
entry 4). Everything outside the block is empty (log entries 6, 20). -/
def State.resetOn (p : Platform) : State where
  addr := 0
  len := 0
  busy := false
  done := false
  res := 0
  eng := { ptr := 0, rem := 0, acc := 0, swap := false }
  pending := none
  queue := []
  hostStuck := false
  mem := []
  hostCache := []
  platform := p
  reads := []
  script := []
  faults := []
  refusalMark := none
  free := 0

/-- The machine right after reset, on the standard platform (log entry 2). -/
def State.reset : State := State.resetOn Platform.standard

end Sys2Proof.Machine
end

