-- ==== Sys2Proof/Machine/Flags.lean ====
section
/-! DEFINITION. The only flags, STATUS.BUSY and STATUS.DONE (10_state.md R34, R40): who sets them, who clears them, and
the word a STATUS read returns. There are no arithmetic condition codes (R40). -/

namespace Sys2Proof.Machine

/-- The STATUS word: {DONE, BUSY} zero-extended (R34, R94, R160). -/
def statusWord (s : State) : Word := (BitVec.ofBool s.done ++ BitVec.ofBool s.busy).setWidth 32

/-- START acceptance sets BUSY and clears DONE (R40, R157). -/
def State.flagsStarted (s : State) : State := { s with busy := true, done := false }

/-- FINISH clears BUSY and sets DONE (R40, R185). -/
def State.flagsFinished (s : State) : State := { s with busy := false, done := true }

/-- Reset clears both (R40, R44). -/
def State.flagsReset (s : State) : State := { s with busy := false, done := false }

end Sys2Proof.Machine
end

