-- ==== Sys2Proof/WellFormed.lean ====
section
/-! DEFINITION. Which terms of `Instr` stand for a word of their row: the reserved-register rows cover a range of
register indices, the refused-offset rows a value of OFFSET[1:0], the reserved-command rows a range of OP
(30_encoding.md rules R95, R96). -/

namespace Sys2Proof

/-- `lo ≤ index ≤ hi`. -/
def indexIn (lo hi : Nat) (index : BitVec 10) : Bool :=
  decide (lo ≤ index.toNat) && decide (index.toNat ≤ hi)

/-- `lo ≤ op ≤ hi`. -/
def opIn (lo hi : Nat) (op : BitVec 4) : Bool :=
  decide (lo ≤ op.toNat) && decide (op.toNat ≤ hi)

/-- The instruction's operands are ones its row of R95 or R96 admits. -/
def Instr.wellFormed : Instr → Bool
  | .rdAddr => true
  | .wrAddr _ => true
  | .rdLen => true
  | .wrLen _ => true
  | .rdCtrl => true
  | .wrCtrl _ => true
  | .rdStatus => true
  | .wrStatus _ => true
  | .rdResult => true
  | .wrResult _ => true
  | .rsvdIndex5 _ => true
  | .rsvdIndex6to7 index _ => indexIn 6 7 index
  | .rsvdIndex8to15 index _ => indexIn 8 15 index
  | .rsvdIndex16to31 index _ => indexIn 16 31 index
  | .rsvdIndex32to63 index _ => indexIn 32 63 index
  | .rsvdIndex64to127 index _ => indexIn 64 127 index
  | .rsvdIndex128to255 index _ => indexIn 128 255 index
  | .rsvdIndex256to511 index _ => indexIn 256 511 index
  | .rsvdIndex512to1023 index _ => indexIn 512 1023 index
  | .refusedSize0 _ _ => true
  | .refusedSize1 _ _ => true
  | .refusedSize3 _ _ => true
  | .refusedOffsetOdd offset _ => offset.getLsbD 0
  | .refusedOffsetTwo offset _ => !offset.getLsbD 0 && offset.getLsbD 1
  | .nop => true
  | .start => true
  | .cmdRsvd2to3 op => opIn 2 3 op
  | .cmdRsvd4to7 op => opIn 4 7 op
  | .cmdRsvd8to15 op => opIn 8 15 op

end Sys2Proof
end

