-- ==== Sys2Proof/Decode.lean ====
section
/-! DEFINITION. Decoding a transaction (30_encoding.md rules R91 to R93, R95, R96), the encoder written from the same
rules, the opcode table as rows, and the pseudo-instructions of R100. -/

namespace Sys2Proof

/-! ### Fields of the access descriptor (R91) -/

/-- SIZE, bits 14:13. -/
def descSize (d : BitVec 15) : BitVec 2 := d.extractLsb' 13 2

/-- W, bit 12. -/
def descWrite (d : BitVec 15) : Bool := d.getLsbD 12

/-- OFFSET, bits 11:0. -/
def descOffset (d : BitVec 15) : BitVec 12 := d.extractLsb' 0 12

/-- The register index, OFFSET[11:2] (R92 step 3). -/
def offsetIndex (offset : BitVec 12) : BitVec 10 := offset.extractLsb' 2 10

/-- OP, bits 3:0 of a CMD word (R93). -/
def cmdOp (word : Word) : BitVec 4 := word.extractLsb' 0 4

/-- A descriptor from its fields (R91). -/
def makeDesc (size : BitVec 2) (write : Bool) (offset : BitVec 12) : BitVec 15 :=
  size ++ (BitVec.ofBool write ++ offset)

/-- Bit W with the DATA a write carries. -/
def descDir (d : BitVec 15) (data : Word) : Dir :=
  if descWrite d then .write data else .read

/-! ### Decoding -/

/-- The register index selects the register, bit W its read or its write rule (R92 steps 3 and 4, R95). -/
def decodeIndex (index : BitVec 10) (dir : Dir) : Instr :=
  match index.toNat with
  | 0 => match dir with | .read => .rdAddr | .write data => .wrAddr data
  | 1 => match dir with | .read => .rdLen | .write data => .wrLen data
  | 2 => match dir with | .read => .rdCtrl | .write data => .wrCtrl data
  | 3 => match dir with | .read => .rdStatus | .write data => .wrStatus data
  | 4 => match dir with | .read => .rdResult | .write data => .wrResult data
  | 5 => .rsvdIndex5 dir
  | n =>
    if n < 8 then .rsvdIndex6to7 index dir
    else if n < 16 then .rsvdIndex8to15 index dir
    else if n < 32 then .rsvdIndex16to31 index dir
    else if n < 64 then .rsvdIndex32to63 index dir
    else if n < 128 then .rsvdIndex64to127 index dir
    else if n < 256 then .rsvdIndex128to255 index dir
    else if n < 512 then .rsvdIndex256to511 index dir
    else .rsvdIndex512to1023 index dir

/-- REG decoding in the order of R92: the size, then the alignment, then the register index. -/
def decodeFields (size : BitVec 2) (offset : BitVec 12) (dir : Dir) : Instr :=
  match size.toNat with
  | 0 => .refusedSize0 offset dir
  | 1 => .refusedSize1 offset dir
  | 2 =>
    if offset.getLsbD 0 then .refusedOffsetOdd offset dir
    else if offset.getLsbD 1 then .refusedOffsetTwo offset dir
    else decodeIndex (offsetIndex offset) dir
  | _ => .refusedSize3 offset dir

/-- A descriptor is decoded from its fields (R91, R92). -/
def decodeReg (d : BitVec 15) (data : Word) : Instr :=
  decodeFields (descSize d) (descOffset d) (descDir d data)

/-- The command of an OP (R93, R96). -/
def decodeOp (op : BitVec 4) : Instr :=
  match op.toNat with
  | 0 => .nop
  | 1 => .start
  | n => if n < 4 then .cmdRsvd2to3 op else if n < 8 then .cmdRsvd4to7 op else .cmdRsvd8to15 op

/-- CMD decoding (R93): OP alone, bits 31:4 ignored. -/
def decodeCmd (word : Word) : Instr := decodeOp (cmdOp word)

/-- Every transaction is exactly one instruction (R95, R96): decoding is total, and an illegal transaction decodes to
a REFUSED row by name (R97). -/
def decode : Access → Instr
  | .reg d data => decodeReg d data
  | .cmd word => decodeCmd word

/-! ### Encoding -/

/-- Bit W of a direction. -/
def Dir.isWrite : Dir → Bool
  | .read => false
  | .write _ => true

/-- The DATA a direction carries; a read carries none, laid down as 0. -/
def Dir.data : Dir → Word
  | .read => 0
  | .write data => data

/-- A REG transaction of a size, an offset and a direction (R91). -/
def encodeAt (size : BitVec 2) (offset : BitVec 12) (dir : Dir) : Access :=
  .reg (makeDesc size dir.isWrite offset) dir.data

/-- A legal REG transaction at a register index: SIZE = 2, OFFSET = index · 4 (R92). -/
def encodeIndex (index : BitVec 10) (dir : Dir) : Access :=
  encodeAt 2 (index ++ (0 : BitVec 2)) dir

/-- The CMD word of an OP, with bits 31:4 written 0 (R93). -/
def encodeCmd (op : BitVec 4) : Access := .cmd (op.setWidth 32)

/-- The transaction of an instruction (R91, R93, R95, R96). -/
def encode : Instr → Access
  | .rdAddr => encodeIndex 0 .read
  | .wrAddr data => encodeIndex 0 (.write data)
  | .rdLen => encodeIndex 1 .read
  | .wrLen data => encodeIndex 1 (.write data)
  | .rdCtrl => encodeIndex 2 .read
  | .wrCtrl data => encodeIndex 2 (.write data)
  | .rdStatus => encodeIndex 3 .read
  | .wrStatus data => encodeIndex 3 (.write data)
  | .rdResult => encodeIndex 4 .read
  | .wrResult data => encodeIndex 4 (.write data)
  | .rsvdIndex5 dir => encodeIndex 5 dir
  | .rsvdIndex6to7 index dir => encodeIndex index dir
  | .rsvdIndex8to15 index dir => encodeIndex index dir
  | .rsvdIndex16to31 index dir => encodeIndex index dir
  | .rsvdIndex32to63 index dir => encodeIndex index dir
  | .rsvdIndex64to127 index dir => encodeIndex index dir
  | .rsvdIndex128to255 index dir => encodeIndex index dir
  | .rsvdIndex256to511 index dir => encodeIndex index dir
  | .rsvdIndex512to1023 index dir => encodeIndex index dir
  | .refusedSize0 offset dir => encodeAt 0 offset dir
  | .refusedSize1 offset dir => encodeAt 1 offset dir
  | .refusedSize3 offset dir => encodeAt 3 offset dir
  | .refusedOffsetOdd offset dir => encodeAt 2 offset dir
  | .refusedOffsetTwo offset dir => encodeAt 2 offset dir
  | .nop => encodeCmd 0
  | .start => encodeCmd 1
  | .cmdRsvd2to3 op => encodeCmd op
  | .cmdRsvd4to7 op => encodeCmd op
  | .cmdRsvd8to15 op => encodeCmd op

/-! ### Transactions as one number, bit 0 the least significant bit of the first word -/

/-- The transaction a number of `nbits` bits stands for: 15 bits, or 16 in whole bytes, are a descriptor (a write's
DATA is then 0); 48 bits are a descriptor in the low 16 with the DATA above it (log entry 13); 32 bits are a CMD word.
Anything else is rejected by name. -/
def parseWord (nbits w : Nat) : Except Reject Access :=
  if nbits = 15 ∨ nbits = 16 then
    if w < 2 ^ 15 then .ok (.reg (BitVec.ofNat 15 w) 0) else .error (.bitsAboveFormat w)
  else if nbits = 48 then
    if w < 2 ^ 48 ∧ w % 2 ^ 16 < 2 ^ 15 then .ok (.reg (BitVec.ofNat 15 (w % 2 ^ 16)) (BitVec.ofNat 32 (w / 2 ^ 16)))
    else .error (.bitsAboveFormat w)
  else if nbits = 32 then
    if w < 2 ^ 32 then .ok (.cmd (BitVec.ofNat 32 w)) else .error (.bitsAboveFormat w)
  else .error (.noSuchWidth nbits)

/-- The transaction, or none where the number is rejected. -/
def accessOfWord (nbits w : Nat) : Option Access :=
  match parseWord nbits w with
  | .ok a => some a
  | .error _ => none

/-- The instruction the decoder reads from a word numbered as the opcode table numbers it. -/
def decodeTableWord (nbits w : Nat) : Option Instr :=
  (accessOfWord nbits w).map decode

/-- The width and the number of an encoded transaction: a read is its 16-bit descriptor, a write has its DATA above
it, a command is its CMD word. -/
def wordOfAccess : Access → Nat × Nat
  | .reg d data => if descWrite d then (48, d.toNat + data.toNat * 2 ^ 16) else (16, d.toNat)
  | .cmd word => (32, word.toNat)

/-! ### The opcode map as rows (R95, R96) -/

/-- The mnemonic of an instruction's row, as spec/opcode_table.json spells it, with the row's match and mask. -/
def Instr.row : Instr → OpcodeRow
  | .rdAddr => ⟨"RD_ADDR", .reg, 0x4000, 0x7FFF⟩
  | .wrAddr _ => ⟨"WR_ADDR", .reg, 0x5000, 0x7FFF⟩
  | .rdLen => ⟨"RD_LEN", .reg, 0x4004, 0x7FFF⟩
  | .wrLen _ => ⟨"WR_LEN", .reg, 0x5004, 0x7FFF⟩
  | .rdCtrl => ⟨"RD_CTRL", .reg, 0x4008, 0x7FFF⟩
  | .wrCtrl _ => ⟨"WR_CTRL", .reg, 0x5008, 0x7FFF⟩
  | .rdStatus => ⟨"RD_STATUS", .reg, 0x400C, 0x7FFF⟩
  | .wrStatus _ => ⟨"WR_STATUS", .reg, 0x500C, 0x7FFF⟩
  | .rdResult => ⟨"RD_RESULT", .reg, 0x4010, 0x7FFF⟩
  | .wrResult _ => ⟨"WR_RESULT", .reg, 0x5010, 0x7FFF⟩
  | .rsvdIndex5 _ => ⟨"RSVD__index_5", .reg, 0x4014, 0x6FFF⟩
  | .rsvdIndex6to7 _ _ => ⟨"RSVD__index_6-7", .reg, 0x4018, 0x6FFB⟩
  | .rsvdIndex8to15 _ _ => ⟨"RSVD__index_8-15", .reg, 0x4020, 0x6FE3⟩
  | .rsvdIndex16to31 _ _ => ⟨"RSVD__index_16-31", .reg, 0x4040, 0x6FC3⟩
  | .rsvdIndex32to63 _ _ => ⟨"RSVD__index_32-63", .reg, 0x4080, 0x6F83⟩
  | .rsvdIndex64to127 _ _ => ⟨"RSVD__index_64-127", .reg, 0x4100, 0x6F03⟩
  | .rsvdIndex128to255 _ _ => ⟨"RSVD__index_128-255", .reg, 0x4200, 0x6E03⟩
  | .rsvdIndex256to511 _ _ => ⟨"RSVD__index_256-511", .reg, 0x4400, 0x6C03⟩
  | .rsvdIndex512to1023 _ _ => ⟨"RSVD__index_512-1023", .reg, 0x4800, 0x6803⟩
  | .refusedSize0 _ _ => ⟨"REFUSED__SIZE_0", .reg, 0x0000, 0x6000⟩
  | .refusedSize1 _ _ => ⟨"REFUSED__SIZE_1", .reg, 0x2000, 0x6000⟩
  | .refusedSize3 _ _ => ⟨"REFUSED__SIZE_3", .reg, 0x6000, 0x6000⟩
  | .refusedOffsetOdd _ _ => ⟨"REFUSED__OFFSET_0____1", .reg, 0x4001, 0x6001⟩
  | .refusedOffsetTwo _ _ => ⟨"REFUSED__OFFSET_1_0____2", .reg, 0x4002, 0x6003⟩
  | .nop => ⟨"NOP", .cmd, 0x00000000, 0x0000000F⟩
  | .start => ⟨"START", .cmd, 0x00000001, 0x0000000F⟩
  | .cmdRsvd2to3 _ => ⟨"CMD_RSVD__OP_2-3", .cmd, 0x00000002, 0x0000000E⟩
  | .cmdRsvd4to7 _ => ⟨"CMD_RSVD__OP_4-7", .cmd, 0x00000004, 0x0000000C⟩
  | .cmdRsvd8to15 _ => ⟨"CMD_RSVD__OP_8-15", .cmd, 0x00000008, 0x00000008⟩

/-- One instruction of each REG row of a named register, in the table's order. -/
def registerRows : List Instr :=
  [.rdAddr, .wrAddr 0, .rdLen, .wrLen 0, .rdCtrl, .wrCtrl 0, .rdStatus, .wrStatus 0, .rdResult, .wrResult 0]

/-- One instruction of each REG row of reserved registers. -/
def reservedRows : List Instr :=
  [.rsvdIndex5 .read, .rsvdIndex6to7 6 .read, .rsvdIndex8to15 8 .read, .rsvdIndex16to31 16 .read,
   .rsvdIndex32to63 32 .read, .rsvdIndex64to127 64 .read, .rsvdIndex128to255 128 .read,
   .rsvdIndex256to511 256 .read, .rsvdIndex512to1023 512 .read]

/-- One instruction of each REG row of refused transactions. -/
def refusedRows : List Instr :=
  [.refusedSize0 0 .read, .refusedSize1 0 .read, .refusedSize3 0 .read, .refusedOffsetOdd 1 .read,
   .refusedOffsetTwo 2 .read]

/-- One instruction of each CMD row. -/
def commandRows : List Instr := [.nop, .start, .cmdRsvd2to3 2, .cmdRsvd4to7 4, .cmdRsvd8to15 8]

/-- The opcode map of R95 and R96, in the table's order. -/
def opcodeTable : List OpcodeRow :=
  [registerRows, reservedRows, refusedRows, commandRows].flatten.map Instr.row

/-- A word of a format is of a row when its masked bits are the row's match (R95). -/
def OpcodeRow.covers (r : OpcodeRow) (f : Format) (w : Nat) : Bool :=
  decide (r.format = f) && decide (w &&& r.mask = r.matchBits)

/-! ### Pseudo-instructions (R100) -/

/-- `CSUM_ISSUE a, n`. -/
def csumIssue (a n : Word) : List Access :=
  [encode (.wrAddr a), encode (.wrLen n), encode (.wrCtrl 1)]

/-- `CSUM name, a, n`. -/
def csum (a n : Word) : List Access := csumIssue a n ++ [encode .rdResult]

/-- One pass of `WAIT`: read STATUS. -/
def waitPass : List Access := [encode .rdStatus]

/-- `WAIT` goes round again while bit 0 of the STATUS value it read is 1. -/
def waitAgain (status : Word) : Bool := status.getLsbD 0

end Sys2Proof
end

