-- ==== Sys2Proof/Machine/Operands.lean ====
section
/-! DEFINITION. Operand forms (30_encoding.md R94): START takes ADDR and LEN as they stand, a write takes DATA whole, a
read's value is zero-extended; and the address forms of R60, R91: the register window and the buffer. -/

namespace Sys2Proof.Machine

/-- `w[0] = 1`, the address parity of R14. -/
def isOdd (w : Word) : Bool := w.getLsbD 0

/-- `w[1:0] = 0`. -/
def isAligned4 (w : Word) : Bool := decide (w.toNat % 4 = 0)

/-- The word a RESULT read returns: RES zero-extended (R94, R162). -/
def resultWord (s : State) : Word := s.res.setWidth 32

/-- The transaction a bus access at a host address is at the register interface: OFFSET is the host address less
CSUM_BASE (R91); outside the 4 KiB window it never reaches the block (R60). -/
def windowAccess (p : Platform) (size : BitVec 2) (write : Bool) (hostAddr : Nat) (data : Word) : Option Access :=
  if p.csumBase ≤ hostAddr ∧ hostAddr < p.csumBase + Config.windowBytes then
    some (.reg (makeDesc size write (BitVec.ofNat 12 (hostAddr - p.csumBase))) data)
  else none

/-- The address lies in the region. -/
def inRegion (r : Region) (a : Nat) : Bool := decide (r.base ≤ a) && decide (a < r.base + r.size)

/-- `Readable(a)` (R6). -/
def readable (p : Platform) (a : Nat) : Bool := p.regions.any (fun r => inRegion r a)

/-- A read of the location has side effects (R68). -/
def sideEffectAt (p : Platform) (a : Nat) : Bool :=
  p.regions.any (fun r => decide (r.kind = .sideEffect) && inRegion r a)

/-- Some address lies both in [a, a + n) and in the region. -/
def overlapsRegion (r : Region) (a n : Nat) : Bool :=
  decide (max r.base a < min (r.base + r.size) (a + n))

/-- The buffer [a, a + n) overlaps a location whose reads have side effects (R213 RF2). -/
def sideEffectBufferAt (p : Platform) (a n : Nat) : Bool :=
  p.regions.any (fun r => decide (r.kind = .sideEffect) && overlapsRegion r a n)

/-- The buffer would pass the top of the address space: ADDR + LEN > 2^32 (R157). -/
def bufferWraps (a n : Word) : Bool := decide (Config.masterSpace < a.toNat + n.toNat)

/-- A CTRL write or a RESULT read: the transactions that are held while BUSY = 1 (R155, R162, R166). -/
def holdable : Instr → Bool
  | .wrCtrl _ => true
  | .rdResult => true
  | .nop => true
  | .start => true
  | .cmdRsvd2to3 _ => true
  | .cmdRsvd4to7 _ => true
  | .cmdRsvd8to15 _ => true
  | .rdAddr => false
  | .wrAddr _ => false
  | .rdLen => false
  | .wrLen _ => false
  | .rdCtrl => false
  | .rdStatus => false
  | .wrStatus _ => false
  | .wrResult _ => false
  | .rsvdIndex5 _ => false
  | .rsvdIndex6to7 _ _ => false
  | .rsvdIndex8to15 _ _ => false
  | .rsvdIndex16to31 _ _ => false
  | .rsvdIndex32to63 _ _ => false
  | .rsvdIndex64to127 _ _ => false
  | .rsvdIndex128to255 _ _ => false
  | .rsvdIndex256to511 _ _ => false
  | .rsvdIndex512to1023 _ _ => false
  | .refusedSize0 _ _ => false
  | .refusedSize1 _ _ => false
  | .refusedSize3 _ _ => false
  | .refusedOffsetOdd _ _ => false
  | .refusedOffsetTwo _ _ => false

/-- START: the command itself, or a CTRL write whose OP is 1 (R93, R155). -/
def isStart : Instr → Bool
  | .wrCtrl data => decide (cmdOp data = 1)
  | .rdResult => false
  | .nop => false
  | .start => true
  | .cmdRsvd2to3 _ => false
  | .cmdRsvd4to7 _ => false
  | .cmdRsvd8to15 _ => false
  | .rdAddr => false
  | .wrAddr _ => false
  | .rdLen => false
  | .wrLen _ => false
  | .rdCtrl => false
  | .rdStatus => false
  | .wrStatus _ => false
  | .wrResult _ => false
  | .rsvdIndex5 _ => false
  | .rsvdIndex6to7 _ _ => false
  | .rsvdIndex8to15 _ _ => false
  | .rsvdIndex16to31 _ _ => false
  | .rsvdIndex32to63 _ _ => false
  | .rsvdIndex64to127 _ _ => false
  | .rsvdIndex128to255 _ _ => false
  | .rsvdIndex256to511 _ _ => false
  | .rsvdIndex512to1023 _ _ => false
  | .refusedSize0 _ _ => false
  | .refusedSize1 _ _ => false
  | .refusedSize3 _ _ => false
  | .refusedOffsetOdd _ _ => false
  | .refusedOffsetTwo _ _ => false

end Sys2Proof.Machine
end

