-- ==== Sys2Proof/Machine/Ops.lean ====
section
/-! DEFINITION. The shared operations: the sparse memory, one access to each register, how a transaction completes or
is held (41_host_interface.md R166), and how a model fault or a refusal is recorded (60_exceptions.md R211, R213,
R216). The block takes no exception and returns from none (R210, R214 to R217): recording is all there is. -/

namespace Sys2Proof.Machine

/-! ### Sparse bytes -/

/-- The byte listed at an address, if one is. -/
def cellsGet : List Host.Cell → Nat → Option Byte
  | [], _ => none
  | (k, v) :: rest, a => if a = k then some v else cellsGet rest a

/-- List a byte at an address, keeping the addresses rising. -/
def cellsPut : List Host.Cell → Nat → Byte → List Host.Cell
  | [], a, b => [(a, b)]
  | (k, v) :: rest, a, b =>
    if a < k then (a, b) :: (k, v) :: rest
    else if a = k then (a, b) :: rest
    else (k, v) :: cellsPut rest a b

/-- List no byte at an address. -/
def cellsErase (cells : List Host.Cell) (a : Nat) : List Host.Cell := cells.filter (fun c => decide (c.1 ≠ a))

/-- The addresses are strictly rising and lie in the master read space. -/
abbrev cellsSorted (cells : List Host.Cell) : Prop :=
  cells.Pairwise (fun x y => x.1 < y.1) ∧ ∀ c ∈ cells, c.1 < 2 ^ 32

/-- The canonical form of memory: rising addresses inside the master read space, and no entry equal to what an
unlisted address reads as. -/
abbrev Memory.wf (m : Memory) : Prop := cellsSorted m ∧ ∀ c ∈ m, c.2 ≠ 0

/-- What an unlisted address reads as. The spec gives no contents: DESIGN CHOICE (log entry 6). -/
def Memory.unlisted : Byte := 0

/-- One byte of the master read space. -/
def Memory.read (m : Memory) (a : Nat) : Byte := (cellsGet m a).getD Memory.unlisted

/-- Write one byte, keeping the canonical form. -/
def Memory.write (m : Memory) (a : Nat) (b : Byte) : Memory :=
  if b = Memory.unlisted then cellsErase m a else cellsPut m a b

/-- `MemRead(a, n)`: the bytes at a .. a + n − 1 (R10). -/
def Memory.readBytes (m : Memory) : Nat → Nat → List Byte
  | _, 0 => []
  | a, n + 1 => m.read a :: m.readBytes (a + 1) n

/-- `be32(MemRead(a, 4))` (R10, R62). -/
def Memory.readWord (m : Memory) (a : Nat) : Word :=
  be32 (m.read a) (m.read (a + 1)) (m.read (a + 2)) (m.read (a + 3))

/-! ### Registers -/

/-- `x[ADDR] <- v` (R31). -/
def State.setAddr (s : State) (v : Word) : State := { s with addr := v }

/-- `x[LEN] <- v` (R32). -/
def State.setLen (s : State) (v : Word) : State := { s with len := v }

/-- `x[RESULT].RES <- v` (R35); FINISH and reset alone do this. -/
def State.setRes (s : State) (v : Half) : State := { s with res := v }

/-- The hidden engine fields (R38). -/
def State.setEng (s : State) (e : Engine) : State := { s with eng := e }

/-! ### Transactions -/

/-- The transaction at the register interface is accepted: it leaves it (R166). -/
def State.complete (s : State) : State := { s with pending := none }

/-- A read is accepted and returns DATA (R91). -/
def State.reply (s : State) (data : Word) : State := { s with pending := none, reads := s.reads ++ [data] }

/-- A transaction that is held while BUSY = 1: no effect, it stays at the head (R155, R162, R166). -/
def heldWhileBusy (s : State) (accepted : Host.Outcome State Fault Refusal) : Host.Outcome State Fault Refusal :=
  if s.busy then .next s else accepted

/-- The register interface takes transaction `a` from the queue, of which `rest` is left (R166). -/
def State.setFront (s : State) (a : Access) (rest : List Access) : State :=
  { s with pending := some a, queue := rest }

/-- The next transaction: the one at the register interface, or else the head of the queue, which the register
interface takes (R166). -/
def State.take (s : State) : Option (Access × State) :=
  match s.pending with
  | some a => some (a, s)
  | none =>
    match s.queue with
    | [] => none
    | a :: rest => some (a, s.setFront a rest)

/-! ### Faults and refusals -/

/-- `raise ModelFault(f)` (R11, R211): the run stops, with the state as it stood before the step (R216). -/
def raiseFault (f : Fault) : Host.Outcome State Fault Refusal := .fault f

/-- `refuse(r)` (R11, R213). -/
def refuse (r : Refusal) : Host.Outcome State Fault Refusal := .refused r

/-- A state with a recorded fault or a refusal mark has no step: it stops again with the reason recorded (R211, R213,
U11; log entry 7). -/
def State.stopped (s : State) : Option (Host.Outcome State Fault Refusal) :=
  match s.faults with
  | f :: _ => some (.fault f)
  | [] =>
    match s.refusalMark with
    | some r => some (.refused r)
    | none => none

/-- A step's outcome recorded in the state it started from (R43, R211, R213, R216). -/
def State.record (s : State) : Host.Outcome State Fault Refusal → State
  | .next t => t
  | .fault f => if f ∈ s.faults then s else { s with faults := s.faults ++ [f] }
  | .refused r => { s with refusalMark := some r }

end Sys2Proof.Machine
end

