-- ==== Sys2Proof/Machine/Buffer.lean ====
section
/-! DEFINITION. The buffer registers ADDR and LEN (41_host_interface.md R151 to R154). They are staging registers: no
access to them is ever held, and none touches the running operation (10_state.md R31, R32). -/

namespace Sys2Proof.Machine

/-- RD ADDR (R152). -/
def execRdAddr (s : State) : Host.Outcome State Fault Refusal := .next (s.reply s.addr)

/-- WR ADDR (R151). -/
def execWrAddr (data : Word) (s : State) : Host.Outcome State Fault Refusal := .next (s.setAddr data).complete

/-- RD LEN (R154). -/
def execRdLen (s : State) : Host.Outcome State Fault Refusal := .next (s.reply s.len)

/-- WR LEN (R153). -/
def execWrLen (data : Word) (s : State) : Host.Outcome State Fault Refusal := .next (s.setLen data).complete

end Sys2Proof.Machine
end

