-- ==== Sys2Proof/Machine/Command.lean ====
section
/-! DEFINITION. The command port CTRL and the commands written to it (41_host_interface.md R155 to R159). -/

namespace Sys2Proof.Machine

/-! ### What an accepted command does -/

/-- What START acceptance leaves: the engine latches ADDR and LEN, ACC is cleared, BUSY is set and DONE cleared; RESULT
is not written (R157). -/
def State.startAccepted (s : State) : State :=
  (s.setEng { ptr := s.addr, rem := s.len, acc := 0, swap := isOdd s.addr }).flagsStarted

/-- START once BUSY = 0: MF2 is checked before any state changes (R157, R212), then RF2 (R213; log entry 8). -/
def startCommand (s : State) : Host.Outcome State Fault Refusal :=
  if bufferWraps s.addr s.len then raiseFault (.bufferWrap s.addr s.len)
  else if sideEffectBufferAt s.platform s.addr.toNat s.len.toNat then refuse .sideEffectBuffer
  else .next s.startAccepted.complete

/-- NOP and the reserved commands change no state (R156, R158). -/
def idleCommand (s : State) : Host.Outcome State Fault Refusal := .next s.complete

/-- The command selected by OP (R155). -/
def runCommand (op : BitVec 4) (s : State) : Host.Outcome State Fault Refusal :=
  match op.toNat with
  | 1 => startCommand s
  | _ => idleCommand s

/-! ### The instructions -/

/-- RD CTRL: 0, never held (R159). -/
def execRdCtrl (s : State) : Host.Outcome State Fault Refusal := .next (s.reply 0)

/-- WR CTRL: held while BUSY = 1, then the command of DATA[3:0] (R155). -/
def execWrCtrl (data : Word) (s : State) : Host.Outcome State Fault Refusal :=
  heldWhileBusy s (runCommand (cmdOp data) s)

/-- NOP (R156). -/
def execNop (s : State) : Host.Outcome State Fault Refusal := heldWhileBusy s (idleCommand s)

/-- START (R157). -/
def execStart (s : State) : Host.Outcome State Fault Refusal := heldWhileBusy s (startCommand s)

/-- CMD_RSVD, OP 2 and 3 (R158). -/
def execCmdRsvd2to3 (s : State) : Host.Outcome State Fault Refusal := heldWhileBusy s (idleCommand s)

/-- CMD_RSVD, OP 4 to 7 (R158). -/
def execCmdRsvd4to7 (s : State) : Host.Outcome State Fault Refusal := heldWhileBusy s (idleCommand s)

/-- CMD_RSVD, OP 8 to 15 (R158). -/
def execCmdRsvd8to15 (s : State) : Host.Outcome State Fault Refusal := heldWhileBusy s (idleCommand s)

end Sys2Proof.Machine
end

