-- ==== Sys2Proof/Machine/Refused.lean ====
section
/-! DEFINITION. The refused transactions: SIZE other than 2, or OFFSET[1:0] other than 0. The spec does not define what
the hardware does with one (41_host_interface.md R165, 93_implementation_defined.md U3), so the model refuses it with
RF1 (60_exceptions.md R213). -/

namespace Sys2Proof.Machine

/-- REFUSED (SIZE 0) (R165). -/
def execRefusedSize0 (_s : State) : Host.Outcome State Fault Refusal := refuse .illegalAccess

/-- REFUSED (SIZE 1) (R165). -/
def execRefusedSize1 (_s : State) : Host.Outcome State Fault Refusal := refuse .illegalAccess

/-- REFUSED (SIZE 3) (R165). -/
def execRefusedSize3 (_s : State) : Host.Outcome State Fault Refusal := refuse .illegalAccess

/-- REFUSED (OFFSET[0] = 1) (R165). -/
def execRefusedOffsetOdd (_s : State) : Host.Outcome State Fault Refusal := refuse .illegalAccess

/-- REFUSED (OFFSET[1:0] = 2) (R165). -/
def execRefusedOffsetTwo (_s : State) : Host.Outcome State Fault Refusal := refuse .illegalAccess

end Sys2Proof.Machine
end

