-- ==== Sys2Proof/Machine/Reserved.lean ====
section
/-! DEFINITION. The reserved registers, index 5 to 1023, read as zero and ignore writes, and are never held
(10_state.md R36, 41_host_interface.md R164). -/

namespace Sys2Proof.Machine

/-- RAZ/WI: a read returns 0, a write changes nothing (R36, R164). -/
def accessReserved (dir : Dir) (s : State) : Host.Outcome State Fault Refusal :=
  match dir with
  | .read => .next (s.reply 0)
  | .write _ => .next s.complete

/-- RSVD (index 5) (R164). -/
def execRsvdIndex5 (dir : Dir) (s : State) : Host.Outcome State Fault Refusal := accessReserved dir s

/-- RSVD (index 6-7) (R164). -/
def execRsvdIndex6to7 (dir : Dir) (s : State) : Host.Outcome State Fault Refusal := accessReserved dir s

/-- RSVD (index 8-15) (R164). -/
def execRsvdIndex8to15 (dir : Dir) (s : State) : Host.Outcome State Fault Refusal := accessReserved dir s

/-- RSVD (index 16-31) (R164). -/
def execRsvdIndex16to31 (dir : Dir) (s : State) : Host.Outcome State Fault Refusal := accessReserved dir s

/-- RSVD (index 32-63) (R164). -/
def execRsvdIndex32to63 (dir : Dir) (s : State) : Host.Outcome State Fault Refusal := accessReserved dir s

/-- RSVD (index 64-127) (R164). -/
def execRsvdIndex64to127 (dir : Dir) (s : State) : Host.Outcome State Fault Refusal := accessReserved dir s

/-- RSVD (index 128-255) (R164). -/
def execRsvdIndex128to255 (dir : Dir) (s : State) : Host.Outcome State Fault Refusal := accessReserved dir s

/-- RSVD (index 256-511) (R164). -/
def execRsvdIndex256to511 (dir : Dir) (s : State) : Host.Outcome State Fault Refusal := accessReserved dir s

/-- RSVD (index 512-1023) (R164). -/
def execRsvdIndex512to1023 (dir : Dir) (s : State) : Host.Outcome State Fault Refusal := accessReserved dir s

end Sys2Proof.Machine
end

