-- ==== Sys2Proof/Machine/Result.lean ====
section
/-! DEFINITION. The read-only registers STATUS and RESULT (41_host_interface.md R160 to R163). -/

namespace Sys2Proof.Machine

/-- RD STATUS: never held, clears nothing (R160). -/
def execRdStatus (s : State) : Host.Outcome State Fault Refusal := .next (s.reply (statusWord s))

/-- WR STATUS: ignored (R161). -/
def execWrStatus (s : State) : Host.Outcome State Fault Refusal := .next s.complete

/-- RD RESULT: held while BUSY = 1, then RES (R162). -/
def execRdResult (s : State) : Host.Outcome State Fault Refusal := heldWhileBusy s (.next (s.reply (resultWord s)))

/-- WR RESULT: ignored (R163). -/
def execWrResult (s : State) : Host.Outcome State Fault Refusal := .next s.complete

end Sys2Proof.Machine
end

