-- ==== Sys2Proof/Machine/Dispatch.lean ====
section
/-! DEFINITION. One arm per instruction of the opcode table. -/

namespace Sys2Proof.Machine

def exec (i : Instr) (s : State) : Host.Outcome State Fault Refusal :=
  match i with
  | .rdAddr => Sys2Proof.Machine.execRdAddr s
  | .wrAddr data => Sys2Proof.Machine.execWrAddr data s
  | .rdLen => Sys2Proof.Machine.execRdLen s
  | .wrLen data => Sys2Proof.Machine.execWrLen data s
  | .rdCtrl => Sys2Proof.Machine.execRdCtrl s
  | .wrCtrl data => Sys2Proof.Machine.execWrCtrl data s
  | .rdStatus => Sys2Proof.Machine.execRdStatus s
  | .wrStatus _ => Sys2Proof.Machine.execWrStatus s
  | .rdResult => Sys2Proof.Machine.execRdResult s
  | .wrResult _ => Sys2Proof.Machine.execWrResult s
  | .rsvdIndex5 dir => Sys2Proof.Machine.execRsvdIndex5 dir s
  | .rsvdIndex6to7 _ dir => Sys2Proof.Machine.execRsvdIndex6to7 dir s
  | .rsvdIndex8to15 _ dir => Sys2Proof.Machine.execRsvdIndex8to15 dir s
  | .rsvdIndex16to31 _ dir => Sys2Proof.Machine.execRsvdIndex16to31 dir s
  | .rsvdIndex32to63 _ dir => Sys2Proof.Machine.execRsvdIndex32to63 dir s
  | .rsvdIndex64to127 _ dir => Sys2Proof.Machine.execRsvdIndex64to127 dir s
  | .rsvdIndex128to255 _ dir => Sys2Proof.Machine.execRsvdIndex128to255 dir s
  | .rsvdIndex256to511 _ dir => Sys2Proof.Machine.execRsvdIndex256to511 dir s
  | .rsvdIndex512to1023 _ dir => Sys2Proof.Machine.execRsvdIndex512to1023 dir s
  | .refusedSize0 _ _ => Sys2Proof.Machine.execRefusedSize0 s
  | .refusedSize1 _ _ => Sys2Proof.Machine.execRefusedSize1 s
  | .refusedSize3 _ _ => Sys2Proof.Machine.execRefusedSize3 s
  | .refusedOffsetOdd _ _ => Sys2Proof.Machine.execRefusedOffsetOdd s
  | .refusedOffsetTwo _ _ => Sys2Proof.Machine.execRefusedOffsetTwo s
  | .nop => Sys2Proof.Machine.execNop s
  | .start => Sys2Proof.Machine.execStart s
  | .cmdRsvd2to3 _ => Sys2Proof.Machine.execCmdRsvd2to3 s
  | .cmdRsvd4to7 _ => Sys2Proof.Machine.execCmdRsvd4to7 s
  | .cmdRsvd8to15 _ => Sys2Proof.Machine.execCmdRsvd8to15 s

end Sys2Proof.Machine
end

