-- ==== Sys2Proof/Machine/Engine.lean ====
section
/-! DEFINITION. The engine's datapath (42_engine.md R180 to R185): which step is enabled, and what each step does. -/

namespace Sys2Proof.Machine

/-- The enabled step kind, a function of PTR, REM and ACC (R181). -/
def engineKind (e : Engine) : StepKind :=
  if 0 < e.rem.toNat ∧ (isAligned4 e.ptr = false ∨ e.rem.toNat < Config.unit) then .byte
  else if Config.unit ≤ e.rem.toNat then .word
  else if 0xFFFF < e.acc.toNat then .fold
  else .finish

/-- A byte weighted by its ADDRESS parity (R182). -/
def byteAddend (address : Word) (v : Byte) : Word :=
  if isOdd address then v.setWidth 32 else v.setWidth 32 <<< 8

/-- The engine after it has added `addend` for `n` bytes: ACC, PTR and REM move together (R182, R183). -/
def Engine.advance (e : Engine) (addend : Word) (n : Word) : Engine :=
  { e with acc := addEac e.acc addend, ptr := e.ptr + n, rem := e.rem - n }

/-- All n bytes from address a are readable (R182, R183). -/
def allReadable (p : Platform) : Nat → Nat → Bool
  | _, 0 => true
  | a, n + 1 => readable p a && allReadable p (a + 1) n

/-- BYTE step (R182). -/
def byteStep (s : State) : Host.Outcome State Fault Refusal :=
  if allReadable s.platform s.eng.ptr.toNat 1 then
    .next (s.setEng (s.eng.advance (byteAddend s.eng.ptr (s.mem.read s.eng.ptr.toNat)) 1))
  else raiseFault (.unreadable s.eng.ptr)

/-- WORD step (R183). -/
def wordStep (s : State) : Host.Outcome State Fault Refusal :=
  if allReadable s.platform s.eng.ptr.toNat 4 then
    .next (s.setEng (s.eng.advance (s.mem.readWord s.eng.ptr.toNat) 4))
  else raiseFault (.unreadable s.eng.ptr)

/-- FOLD step (R184). -/
def foldStep (s : State) : Host.Outcome State Fault Refusal :=
  .next (s.setEng { s.eng with acc := foldWord s.eng.acc })

/-- What FINISH writes to RES: ACC[15:0], its bytes swapped when the buffer started at an odd address (R185). -/
def Engine.result (e : Engine) : Half :=
  if e.swap then swap16 (e.acc.setWidth 16) else e.acc.setWidth 16

/-- FINISH step (R185). -/
def finishStep (s : State) : Host.Outcome State Fault Refusal :=
  .next (s.setRes s.eng.result).flagsFinished

/-- The engine's step: none while BUSY = 0, and then nothing changes; while BUSY = 1 exactly the enabled one (R180). -/
def engineStep (s : State) : Host.Outcome State Fault Refusal :=
  if s.busy then
    match engineKind s.eng with
    | .byte => byteStep s
    | .word => wordStep s
    | .fold => foldStep s
    | .finish => finishStep s
  else .next s

/-- The atomic abstraction of a whole operation (R189): RES = CSUM(bytes), BUSY = 0 and DONE = 1 in one step. -/
def State.atomicOperation (s : State) (bytes : List Byte) : State := (s.setRes (checksum bytes)).flagsFinished

/-- How many bytes the enabled step reads, from PTR upwards: one read of 1 or 4 bytes, or none (R64, R180). -/
def engineReadSize (s : State) : Nat :=
  if s.busy then
    match engineKind s.eng with
    | .byte => 1
    | .word => 4
    | .fold => 0
    | .finish => 0
  else 0

/-- The addresses the enabled step reads, in order (R187). -/
def engineReadAddresses (s : State) : List Nat := List.range' s.eng.ptr.toNat (engineReadSize s)

/-- The bytes the enabled step reads, in order (R71, R188). -/
def engineReadBytes (s : State) : List Byte := s.mem.readBytes s.eng.ptr.toNat (engineReadSize s)

end Sys2Proof.Machine
end

