-- ==== Sys2Proof/Machine/World.lean ====
section
/-! DEFINITION. What comes from outside the block (00_scope.md R3, 70_reset_and_hazards.md R240, R241, R253): whose
turn it is, the platform's reset, bus transactions, writes to the master read space, and the host's cache. -/

namespace Sys2Proof.Machine

/-- The outside world's choices that are left. -/
def State.setScript (s : State) (rest : List Turn) : State := { s with script := rest }

/-- The turn to take, and the state with the turn used up. With no turn left the engine goes first while it has a
step, then the host: DESIGN CHOICE (log entry 1), fair to both (R252). -/
def State.nextTurn (s : State) : Turn × State :=
  match s.script with
  | t :: rest => (t, s.setScript rest)
  | [] => (if s.busy then .engine else .host, s)

/-- Engine fields left by a reset: free values (R44, U9; log entry 5). -/
def freeEngine (n : Nat) : Engine where
  ptr := Config.freeWord n
  rem := Config.freeWord (n + 1)
  acc := Config.freeWord (n + 2)
  swap := (Config.freeWord (n + 3)).getLsbD 0

/-- The block's own state after reset (R44, R240): a transaction at the register interface is discarded (R241).
Recorded faults and the refusal mark stay (R43). -/
def State.resetBlock (s : State) : State :=
  { (((s.setAddr 0).setLen 0).setRes 0).flagsReset with
    eng := freeEngine s.free, pending := none, free := s.free + 4 }

/-- The waiting host agent has no further step when its transaction was discarded and the bus path was not reset with
the block (R241, U10; log entry 9). -/
def stuckAfterReset (s : State) (busPath : Bool) : Bool := !busPath && (s.hostStuck || s.pending.isSome)

/-- Whether the waiting host agent is stuck (U10). -/
def State.setHostStuck (s : State) (stuck : Bool) : State := { s with hostStuck := stuck }

/-- The platform's reset (R240, R241). -/
def resetTurn (busPath : Bool) (s : State) : State := s.resetBlock.setHostStuck (stuckAfterReset s busPath)

/-- A transaction joins the end of the queue (R166). -/
def State.enqueue (s : State) (a : Access) : State := { s with queue := s.queue ++ [a] }

/-- A bus transaction is issued: inside the window it joins the queue, outside it never reaches the block (R60, R166).
A stuck host issues nothing (U10). -/
def issueTurn (size : BitVec 2) (write : Bool) (hostAddr : Nat) (data : Word) (s : State) : State :=
  if s.hostStuck then s
  else
    match windowAccess s.platform size write hostAddr data with
    | some a => s.enqueue a
    | none => s

/-- A write of one byte by any agent is performed at the master port (R71). -/
def State.writeByte (s : State) (a : Nat) (b : Byte) : State := { s with mem := s.mem.write a b }

/-- What the host's cache holds back from the master port (R79). -/
def State.setHostCache (s : State) (cells : List Host.Cell) : State := { s with hostCache := cells }

/-- The host's processor stores a byte: at once visible at the master port where COHERENT = true, and otherwise held
in the host's cache (R74, R79; log entry 11). A stuck host stores nothing (U10). -/
def hostStoreTurn (a : Word) (b : Byte) (s : State) : State :=
  if s.hostStuck then s
  else if s.platform.coherent then s.writeByte a.toNat b
  else s.setHostCache (cellsPut s.hostCache a.toNat b)

/-- The host cleans a byte of its cache to memory (R79). -/
def hostCleanTurn (a : Word) (s : State) : State :=
  match cellsGet s.hostCache a.toNat with
  | some b => (s.writeByte a.toNat b).setHostCache (cellsErase s.hostCache a.toNat)
  | none => s

/-- The register interface's turn: the transaction to run, decoded, on the state in which it stands at the register
interface (R92, R166); nothing when there is none or the waiting host is stuck. -/
def hostTurn (s : State) : Move :=
  if s.hostStuck then .did (.next s)
  else
    match s.take with
    | some (a, t) => .run (decode a) t
    | none => .did (.next s)

/-- What a turn comes to on the state it starts from. -/
def turnMove : Turn → State → Move
  | .host, s => hostTurn s
  | .engine, s => .did (engineStep s)
  | .reset busPath, s => .did (.next (resetTurn busPath s))
  | .issue size write hostAddr data, s => .did (.next (issueTurn size write hostAddr data s))
  | .agentWrite a b, s => .did (.next (s.writeByte a.toNat b))
  | .hostStore a b, s => .did (.next (hostStoreTurn a b s))
  | .hostClean a, s => .did (.next (hostCleanTurn a s))

/-- What the next step comes to: a stopped state stops again, and otherwise the turn is taken. -/
def State.move (s : State) : Move :=
  match s.stopped with
  | some o => .did o
  | none => turnMove s.nextTurn.1 s.nextTurn.2

/-- The addresses the next step reads through the master port, in order: those of the engine's step when it is its
turn, and none otherwise (R180, R187). -/
def State.stepReadAddresses (s : State) : List Nat :=
  match s.nextTurn.1 with
  | .engine => engineReadAddresses s
  | _ => []

/-- The bytes the next step reads through the master port, in order (R71, R188). -/
def State.stepReadBytes (s : State) : List Byte :=
  match s.nextTurn.1 with
  | .engine => engineReadBytes s
  | _ => []

/-- The transaction placed at the register interface's head, with the host's turn next. -/
def State.present (s : State) (a : Access) : State :=
  { s with script := .host :: s.script, pending := none, queue := a :: s.queue, hostStuck := false }

end Sys2Proof.Machine
end

