-- ==== Sys2Proof/Machine/Step.lean ====
section
/-! DEFINITION. One step of the machine: the turn of one agent (42_engine.md R180, 41_host_interface.md R166). -/

namespace Sys2Proof.Machine

/-- What a turn comes to: the instruction run on its state, or the outcome already there. -/
def Move.outcome : Move → Host.Outcome State Fault Refusal
  | .run i t => exec i t
  | .did o => o

/-- One step. -/
def step (s : State) : Host.Outcome State Fault Refusal := s.move.outcome

/-- The state in which the next step takes and runs exactly the transaction that the word stands for (log entry 10);
the state itself where the word stands for none. -/
def State.withFetchWord (s : State) (nbits w : Nat) : State :=
  match accessOfWord nbits w with
  | some a => s.present a
  | none => s

/-- A run of k steps, which the first fault or refusal ends. -/
def runSteps : Nat → State → Host.Outcome State Fault Refusal
  | 0, s => .next s
  | k + 1, s =>
    match step s with
    | .next t => runSteps k t
    | .fault f => .fault f
    | .refused r => .refused r

/-- A run of k steps that keeps what is recorded: a fault or a refusal ends it, and the record stays (R43). -/
def runRecorded : Nat → State → State
  | 0, s => s
  | k + 1, s => runRecorded k (s.record (step s))

end Sys2Proof.Machine
end

