-- ==== Sys2Proof/Safety.lean ====
section
/-! DEFINITION. What counts as a safe run, in the terms claims use: a running state, the end of a run
(70_reset_and_hazards.md R254), the invariants of the block, and what one operation has done so far
(10_state.md R39, 42_engine.md R187, R188). -/

namespace Sys2Proof.Machine

/-- No model fault is recorded and the refusal mark is clear (R43). -/
abbrev State.running (s : State) : Prop := s.faults = [] ∧ s.refusalMark = none

/-- The turn issues a transaction. -/
def Turn.issues : Turn → Bool
  | .issue _ _ _ _ => true
  | .host => false
  | .engine => false
  | .reset _ => false
  | .agentWrite _ _ => false
  | .hostStore _ _ => false
  | .hostClean _ => false

/-- The end of a run of a host program (R254): no further transaction to issue or take, BUSY = 0, no model fault and a
clear refusal mark. A host that waits for ever on a discarded transaction has not come to the end of its program (R241,
U10). -/
abbrev State.final (s : State) : Prop :=
  s.pending = none ∧ s.queue = [] ∧ s.script.all (fun t => !t.issues) = true ∧ s.hostStuck = false ∧
    s.busy = false ∧ s.running

/-- What every step keeps. -/
structure Inv (s : State) : Prop where
  /-- BUSY and DONE never hold together (R34). -/
  flags_exclusive : ¬ (s.busy = true ∧ s.done = true)
  /-- Memory keeps its canonical form. -/
  mem_wf : Memory.wf s.mem
  /-- So does the host's cache. -/
  cache_sorted : cellsSorted s.hostCache
  /-- On a coherent platform no store is hidden from the master port (R79). -/
  cache_coherent : s.platform.coherent = true → s.hostCache = []
  /-- Only a CTRL write or a RESULT read waits at the register interface (R41, R155, R162, R166). -/
  pending_holdable : ∀ a, s.pending = some a → holdable (decode a) = true
  /-- A stuck host's transaction was discarded (R241, U10). -/
  stuck_pending : s.hostStuck = true → s.pending = none
  /-- Idle and not DONE only before any operation has finished since reset, and RES is then 0 (R35, R160). -/
  fresh_result : s.busy = false → s.done = false → s.res = 0
  /-- The bytes still to be read lie in the address space (R133, R157). -/
  buffer_fits : s.busy = true → s.eng.rem.toNat = 0 ∨ s.eng.ptr.toNat + s.eng.rem.toNat ≤ 2 ^ 32
  /-- No byte still to be read has side effects (R68, R213). -/
  no_side_effect : s.busy = true → ∀ k < s.eng.rem.toNat, sideEffectAt s.platform (s.eng.ptr.toNat + k) = false

/-- The operation that latched address a and length n, with BUSY = 1 (R39): PTR and REM agree with what was latched,
and SWAP is the parity of a. -/
structure Latched (a n : Word) (s : State) : Prop where
  busy : s.busy = true
  fits : a.toNat + n.toNat ≤ 2 ^ 32
  rem_le : s.eng.rem.toNat ≤ n.toNat
  ptr_eq : s.eng.ptr.toNat = (a.toNat + n.toNat - s.eng.rem.toNat) % 2 ^ 32
  swap_eq : s.eng.swap = isOdd a

/-- That operation, with `bytes` the byte values its reads have returned so far (R188): ACC agrees with their sum
weighted by address parity, modulo 0xFFFF, and is 0 exactly when that sum is. -/
structure Summing (a n : Word) (bytes : List Byte) (s : State) : Prop extends Latched a n s where
  count : bytes.length + s.eng.rem.toNat = n.toNat
  residue : s.eng.acc.toNat % 0xFFFF = weightedSum (!isOdd a) bytes % 0xFFFF
  zero_iff : s.eng.acc.toNat = 0 ↔ weightedSum (!isOdd a) bytes = 0

/-- Every byte of [a, a + n) is readable, the buffer fits, and no byte of it has side effects: the caller contract at
START (R250). -/
abbrev CallerContract (p : Platform) (a n : Word) : Prop :=
  a.toNat + n.toNat ≤ 2 ^ 32 ∧ (∀ k < n.toNat, readable p (a.toNat + k) = true) ∧
    sideEffectBufferAt p a.toNat n.toNat = false

/-- An operation just accepted by START, with nothing from outside to come between the engine's steps: the hypothesis
of the atomic abstraction (R189, R247). -/
structure Alone (a n : Word) (s : State) : Prop where
  running : s.running
  script : s.script = []
  busy : s.busy = true
  eng : s.eng = { ptr := a, rem := n, acc := 0, swap := isOdd a }

/-- The block is idle with these transactions in its queue and nothing from outside to come. -/
structure IdleWith (queue : List Access) (s : State) : Prop where
  running : s.running
  script : s.script = []
  busy : s.busy = false
  pending : s.pending = none
  hostStuck : s.hostStuck = false
  queue : s.queue = queue

end Sys2Proof.Machine
end

