-- ==== Sys2Proof/Certificates/Slice0/Obligations.lean ====
section
/-! DEFINITION. The statements for the provers, from the numbered rules of the spec. A statement over every state holds
in states no run reaches; a `running` hypothesis says that no model fault and no refusal has been recorded
(10_state.md R43). -/

open Sys2Proof Sys2Proof.Machine

/-! ### Fetching and decoding -/

/-- R166 with R92: on the host's turn the transaction at the register interface, or else the head of the queue, is
decoded and run; the rest of the queue stays. -/
def Obligations.HostTurnRunsDecodedHead : Prop :=
  ∀ (s : State) (rest : List Turn), s.running → s.hostStuck = false → s.script = .host :: rest →
    (∀ a, s.pending = some a → step s = exec (decode a) { s with script := rest }) ∧
    (∀ a q, s.pending = none → s.queue = a :: q →
      step s = exec (decode a) { s with script := rest, pending := some a, queue := q }) ∧
    (s.pending = none → s.queue = [] → step s = .next { s with script := rest })

/-- A word placed with `withFetchWord` is the one the next step decodes and runs (log entry 10). -/
def Obligations.FetchedWordRunsNext : Prop :=
  ∀ (s : State) (nbits w : Nat) (i : Instr), s.running → decodeTableWord nbits w = some i →
    ∃ a, accessOfWord nbits w = some a ∧ decode a = i ∧
      step (s.withFetchWord nbits w) = exec i { s with pending := some a, hostStuck := false }

/-- Words written out from R91, R93, R95, R96 decode to the instructions they stand for. -/
def Obligations.KnownWordsDecode : Prop :=
  decodeTableWord 16 0b100000000000000 = some .rdAddr ∧
  decodeTableWord 48 0x20000001_5000 = some (.wrAddr 0x20000001) ∧
  decodeTableWord 16 0b100000000010000 = some .rdResult ∧
  decodeTableWord 48 0x00000011_5008 = some (.wrCtrl 0x11) ∧
  decodeTableWord 16 0b100111111111100 = some (.rsvdIndex512to1023 1023 .read) ∧
  decodeTableWord 16 0b010000000001100 = some (.refusedSize1 0x00C .read) ∧
  decodeTableWord 16 0b100000000010001 = some (.refusedOffsetOdd 0x011 .read) ∧
  decodeTableWord 32 0b10001 = some .start ∧
  decodeTableWord 32 0xFFFFFFF0 = some .nop ∧
  decodeTableWord 32 0x7 = some (.cmdRsvd4to7 7)

/-- Every well-formed instruction, with every operand its row admits, is read back from its encoding, both as a
transaction and as one number. -/
def Obligations.DecodeInvertsEncode : Prop :=
  ∀ i : Instr, i.wellFormed = true →
    decode (encode i) = i ∧ decodeTableWord (wordOfAccess (encode i)).1 (wordOfAccess (encode i)).2 = some i

/-- Every transaction decodes to a well-formed instruction. -/
def Obligations.DecodeIsWellFormed : Prop := ∀ a : Access, (decode a).wellFormed = true

/-- R95: every descriptor matches exactly one row of the REG map, and R92's procedure finds that row. -/
def Obligations.DescriptorMatchesExactlyOneRow : Prop :=
  ∀ (d : BitVec 15) (data : Word),
    opcodeTable.filter (fun r => r.covers .reg d.toNat) = [(decode (.reg d data)).row]

/-- R96: every 32-bit value matches exactly one row of the CMD map, and the decoder finds that row. -/
def Obligations.CommandMatchesExactlyOneRow : Prop :=
  ∀ w : Word, opcodeTable.filter (fun r => r.covers .cmd w.toNat) = [(decode (.cmd w)).row]

/-- R92: the size is checked first, then the alignment; then OFFSET[11:2] selects the register and W its read or its
write; index 5 to 1023 is reserved, RAZ/WI (R36). -/
def Obligations.RegisterIndexSelectsTheRegister : Prop :=
  ∀ (d : BitVec 15) (data : Word) (s : State),
    (descSize d ≠ 2 ∨ (descOffset d).toNat % 4 ≠ 0 → exec (decode (.reg d data)) s = .refused .illegalAccess) ∧
    (descSize d = 2 →
      (descOffset d = 0x000 → decode (.reg d data) = if descWrite d then .wrAddr data else .rdAddr) ∧
      (descOffset d = 0x004 → decode (.reg d data) = if descWrite d then .wrLen data else .rdLen) ∧
      (descOffset d = 0x008 → decode (.reg d data) = if descWrite d then .wrCtrl data else .rdCtrl) ∧
      (descOffset d = 0x00C → decode (.reg d data) = if descWrite d then .wrStatus data else .rdStatus) ∧
      (descOffset d = 0x010 → decode (.reg d data) = if descWrite d then .wrResult data else .rdResult) ∧
      ((descOffset d).toNat % 4 = 0 → 0x014 ≤ (descOffset d).toNat →
        exec (decode (.reg d data)) s = .next { s with
          pending := none, reads := if descWrite d then s.reads else s.reads ++ [0] }))

/-- R60, R91: a bus transaction in the window joins the queue with OFFSET = host address − CSUM_BASE; one outside it
never reaches the block. -/
def Obligations.WindowTransactionsJoinTheQueue : Prop :=
  ∀ (s : State) (rest : List Turn) (size : BitVec 2) (write : Bool) (hostAddr : Nat) (data : Word),
    s.running → s.hostStuck = false → s.script = .issue size write hostAddr data :: rest →
    (∀ off : BitVec 12, hostAddr = s.platform.csumBase + off.toNat →
      ∃ d, step s = .next { s with script := rest, queue := s.queue ++ [.reg d data] } ∧
        descSize d = size ∧ descWrite d = write ∧ descOffset d = off) ∧
    (hostAddr < s.platform.csumBase ∨ s.platform.csumBase + 4096 ≤ hostAddr →
      step s = .next { s with script := rest })

/-! ### Register transactions -/

/-- R151 to R154: WR ADDR and WR LEN store DATA, RD ADDR and RD LEN return the last value written; never held, nothing
else changes. -/
def Obligations.BufferRegistersStoreAndReturn : Prop :=
  ∀ (s : State) (v : Word),
    decode (.reg 0x5000 v) = .wrAddr v ∧ decode (.reg 0x4000 v) = .rdAddr ∧
    decode (.reg 0x5004 v) = .wrLen v ∧ decode (.reg 0x4004 v) = .rdLen ∧
    exec (.wrAddr v) s = .next { s with addr := v, pending := none } ∧
    exec .rdAddr s = .next { s with pending := none, reads := s.reads ++ [s.addr] } ∧
    exec (.wrLen v) s = .next { s with len := v, pending := none } ∧
    exec .rdLen s = .next { s with pending := none, reads := s.reads ++ [s.len] }

/-- R159: RD CTRL returns 0, even while busy. -/
def Obligations.CtrlReadReturnsZero : Prop :=
  ∀ (s : State) (data : Word), decode (.reg 0x4008 data) = .rdCtrl ∧
    exec .rdCtrl s = .next { s with pending := none, reads := s.reads ++ [0] }

/-- R160: RD STATUS returns {DONE, BUSY} zero-extended, is never held and clears nothing; under the invariant it is
never 0x3. -/
def Obligations.StatusReadReturnsFlags : Prop :=
  ∀ (s : State) (data : Word), decode (.reg 0x400C data) = .rdStatus ∧
    ∃ v : Word, exec .rdStatus s = .next { s with pending := none, reads := s.reads ++ [v] } ∧
      v.getLsbD 0 = s.busy ∧ v.getLsbD 1 = s.done ∧ v.toNat < 4 ∧ (Inv s → v ≠ 3)

/-- R161, R163: a write to STATUS or RESULT changes no state, and is never held. -/
def Obligations.ReadOnlyRegistersIgnoreWrites : Prop :=
  ∀ (s : State) (v : Word),
    decode (.reg 0x500C v) = .wrStatus v ∧ exec (.wrStatus v) s = .next { s with pending := none } ∧
    decode (.reg 0x5010 v) = .wrResult v ∧ exec (.wrResult v) s = .next { s with pending := none }

/-- R162: RD RESULT is held while BUSY = 1, and then returns RES zero-extended and clears nothing. -/
def Obligations.ResultReadWaitsThenReturns : Prop :=
  ∀ s : State,
    (s.busy = true → exec .rdResult s = .next s) ∧
    (s.busy = false → exec .rdResult s = .next { s with pending := none, reads := s.reads ++ [s.res.setWidth 32] })

/-- R164: the reserved registers read as 0 and ignore writes, in every state. -/
def Obligations.ReservedRegistersReadZeroIgnoreWrites : Prop :=
  ∀ (s : State) (index : BitVec 10) (dir : Dir),
    let o : Host.Outcome State Fault Refusal := match dir with
      | .read => .next { s with pending := none, reads := s.reads ++ [0] }
      | .write _ => .next { s with pending := none }
    exec (.rsvdIndex5 dir) s = o ∧ exec (.rsvdIndex6to7 index dir) s = o ∧ exec (.rsvdIndex8to15 index dir) s = o ∧
    exec (.rsvdIndex16to31 index dir) s = o ∧ exec (.rsvdIndex32to63 index dir) s = o ∧
    exec (.rsvdIndex64to127 index dir) s = o ∧ exec (.rsvdIndex128to255 index dir) s = o ∧
    exec (.rsvdIndex256to511 index dir) s = o ∧ exec (.rsvdIndex512to1023 index dir) s = o

/-- R165: a transaction is refused with RF1 exactly when SIZE is not 2 or OFFSET[1:0] is not 0, in every state, and the
refusal sets the refusal mark and nothing else. -/
def Obligations.RefusedTransactionsStop : Prop :=
  ∀ s : State,
    (∀ (offset : BitVec 12) (dir : Dir),
      exec (.refusedSize0 offset dir) s = .refused .illegalAccess ∧
      exec (.refusedSize1 offset dir) s = .refused .illegalAccess ∧
      exec (.refusedSize3 offset dir) s = .refused .illegalAccess ∧
      exec (.refusedOffsetOdd offset dir) s = .refused .illegalAccess ∧
      exec (.refusedOffsetTwo offset dir) s = .refused .illegalAccess) ∧
    (∀ (d : BitVec 15) (data : Word),
      exec (decode (.reg d data)) s = .refused .illegalAccess ↔
        descSize d ≠ 2 ∨ (descOffset d).toNat % 4 ≠ 0) ∧
    s.record (.refused .illegalAccess) = { s with refusalMark := some .illegalAccess }

/-! ### Commands -/

/-- R155: a CTRL write is held while BUSY = 1, and is then the command its DATA[3:0] selects, DATA[31:4] ignored. -/
def Obligations.CtrlWriteIsItsCommand : Prop :=
  ∀ (w : Word) (s : State),
    (s.busy = true → exec (.wrCtrl w) s = .next s) ∧
    exec (.wrCtrl w) s = exec (decode (.cmd w)) s ∧
    (∀ w' : Word, w.toNat % 16 = w'.toNat % 16 → exec (.wrCtrl w') s = exec (.wrCtrl w) s)

/-- In an idle state a CTRL write completes, and the state it leaves is the one its OP selects: any OP but 1 changes
nothing, OP 1 starts the operation wherever START accepts the buffer. -/
def Obligations.CtrlWriteCompletesWhenIdle : Prop :=
  ∀ (w : Word) (s : State), s.busy = false →
    (w.toNat % 16 ≠ 1 → exec (.wrCtrl w) s = .next { s with pending := none }) ∧
    (w.toNat % 16 = 1 → s.addr.toNat + s.len.toNat ≤ 2 ^ 32 →
      sideEffectBufferAt s.platform s.addr.toNat s.len.toNat = false →
      exec (.wrCtrl w) s = .next { s with
        pending := none, busy := true, done := false,
        eng := { ptr := s.addr, rem := s.len, acc := 0, swap := s.addr.getLsbD 0 } })

/-- R156, R158: NOP and the reserved commands, which are all the commands whose OP is not 1, are held while BUSY = 1
and then change no state. -/
def Obligations.IdleCommandsChangeNothing : Prop :=
  ∀ (s : State) (op : BitVec 4) (w : Word) (i : Instr),
    i ∈ ([.nop, .cmdRsvd2to3 op, .cmdRsvd4to7 op, .cmdRsvd8to15 op] : List Instr) ∨
      (w.toNat % 16 ≠ 1 ∧ i = decode (.cmd w)) →
    (s.busy = true → exec i s = .next s) ∧ (s.busy = false → exec i s = .next { s with pending := none })

/-- R157: START is every command whose OP is 1. While BUSY = 1 it is held. Accepted, it latches ADDR and LEN into the
engine, clears ACC, sets BUSY, clears DONE and leaves RESULT; over an empty buffer the engine's first step is then
FINISH. A buffer that would pass 2^32 is MF2. -/
def Obligations.StartLatchesTheBuffer : Prop :=
  ∀ s : State,
    (∀ w : Word, w.toNat % 16 = 1 → decode (.cmd w) = .start) ∧
    (s.busy = true → exec .start s = .next s) ∧
    (s.busy = false → 2 ^ 32 < s.addr.toNat + s.len.toNat → exec .start s = .fault (.bufferWrap s.addr s.len)) ∧
    (s.busy = false → s.addr.toNat + s.len.toNat ≤ 2 ^ 32 →
      sideEffectBufferAt s.platform s.addr.toNat s.len.toNat = false →
      ∃ t, exec .start s = .next t ∧
        t = { s with
          pending := none, busy := true, done := false,
          eng := { ptr := s.addr, rem := s.len, acc := 0, swap := s.addr.getLsbD 0 } } ∧
        (s.len = 0 → engineKind t.eng = .finish))

/-- R157, R213: an idle START faults with MF2 exactly when ADDR + LEN > 2^32, and otherwise is refused with RF2 exactly
when some byte of the buffer lies where reads have side effects. -/
def Obligations.StartFaultsOrIsRefusedExactlyWhen : Prop :=
  ∀ s : State, s.busy = false →
    (exec .start s = .fault (.bufferWrap s.addr s.len) ↔ 2 ^ 32 < s.addr.toNat + s.len.toNat) ∧
    (exec .start s = .refused .sideEffectBuffer ↔ s.addr.toNat + s.len.toNat ≤ 2 ^ 32 ∧
      ∃ k < s.len.toNat, sideEffectAt s.platform (s.addr.toNat + k) = true)

/-- R166: a transaction that is held has no effect, stays at the head, and no later one takes effect before it. -/
def Obligations.HeldTransactionStaysAtTheHead : Prop :=
  ∀ (s : State) (rest : List Turn), s.running → s.hostStuck = false → s.script = .host :: rest → s.busy = true →
    (∀ a, s.pending = some a → holdable (decode a) = true → step s = .next { s with script := rest }) ∧
    (∀ a q, s.pending = none → s.queue = a :: q → holdable (decode a) = true →
      step s = .next { s with script := rest, pending := some a, queue := q })

/-- R246: while an operation runs, no transaction changes the engine's fields, RESULT or a flag, and the next START
waits. -/
def Obligations.TransactionsDoNotTouchARunningOperation : Prop :=
  ∀ (i : Instr) (s : State), s.busy = true →
    (∀ t, exec i s = .next t →
      t.eng = s.eng ∧ t.res = s.res ∧ t.busy = true ∧ t.done = s.done ∧ t.mem = s.mem) ∧
    (isStart i = true → exec i s = .next s)

/-! ### The engine -/

/-- R180: while BUSY = 0 the engine has no step: its turn changes nothing and reads nothing. -/
def Obligations.IdleEngineHasNoStep : Prop :=
  ∀ (s : State) (rest : List Turn), s.running → s.script = .engine :: rest → s.busy = false →
    step s = .next { s with script := rest } ∧ s.stepReadAddresses = []

/-- R181: which step kind is enabled. -/
def Obligations.StepSelection : Prop :=
  ∀ e : Engine,
    (engineKind e = .byte ↔ 0 < e.rem.toNat ∧ (e.ptr.toNat % 4 ≠ 0 ∨ e.rem.toNat < 4)) ∧
    (engineKind e = .word ↔ 4 ≤ e.rem.toNat ∧ e.ptr.toNat % 4 = 0) ∧
    (engineKind e = .fold ↔ e.rem.toNat = 0 ∧ 0xFFFF < e.acc.toNat) ∧
    (engineKind e = .finish ↔ e.rem.toNat = 0 ∧ e.acc.toNat ≤ 0xFFFF)

/-- R182: the BYTE step. -/
def Obligations.ByteStep : Prop :=
  ∀ (s : State) (rest : List Turn), s.running → s.script = .engine :: rest → s.busy = true →
    0 < s.eng.rem.toNat → s.eng.ptr.toNat % 4 ≠ 0 ∨ s.eng.rem.toNat < 4 →
    (readable s.platform s.eng.ptr.toNat = true →
      ∃ addend : Word, addend.toNat = (s.mem.read s.eng.ptr.toNat).toNat *
          (if s.eng.ptr.toNat % 2 = 0 then 2 ^ 8 else 1) ∧
        step s = .next { s with script := rest, eng := { s.eng with
          acc := addEac s.eng.acc addend, ptr := s.eng.ptr + 1, rem := s.eng.rem - 1 } }) ∧
    (readable s.platform s.eng.ptr.toNat = false → step s = .fault (.unreadable s.eng.ptr))

/-- R183: the WORD step. -/
def Obligations.WordStep : Prop :=
  ∀ (s : State) (rest : List Turn), s.running → s.script = .engine :: rest → s.busy = true →
    4 ≤ s.eng.rem.toNat → s.eng.ptr.toNat % 4 = 0 →
    ((∀ k < 4, readable s.platform (s.eng.ptr.toNat + k) = true) →
      ∃ w : Word, w.toNat = (s.mem.read s.eng.ptr.toNat).toNat * 2 ^ 24 +
          (s.mem.read (s.eng.ptr.toNat + 1)).toNat * 2 ^ 16 + (s.mem.read (s.eng.ptr.toNat + 2)).toNat * 2 ^ 8 +
          (s.mem.read (s.eng.ptr.toNat + 3)).toNat ∧
        step s = .next { s with script := rest, eng := { s.eng with
          acc := addEac s.eng.acc w, ptr := s.eng.ptr + 4, rem := s.eng.rem - 4 } }) ∧
    ((∃ k < 4, readable s.platform (s.eng.ptr.toNat + k) = false) → step s = .fault (.unreadable s.eng.ptr))

/-- R184, R185: the FOLD and the FINISH step. Neither reads memory, and two folds bring ACC to 16 bits. -/
def Obligations.FoldAndFinishSteps : Prop :=
  ∀ (s : State) (rest : List Turn), s.running → s.script = .engine :: rest → s.busy = true → s.eng.rem.toNat = 0 →
    s.stepReadAddresses = [] ∧ fold16 s.eng.acc.toNat ≤ 0x1FFFE ∧ fold16 (fold16 s.eng.acc.toNat) ≤ 0xFFFF ∧
    (0xFFFF < s.eng.acc.toNat →
      step s = .next { s with
        script := rest, eng := { s.eng with acc := BitVec.ofNat 32 (fold16 s.eng.acc.toNat) } }) ∧
    (s.eng.acc.toNat ≤ 0xFFFF →
      step s = .next { s with
        script := rest, busy := false, done := true,
        res := if s.eng.swap then swap16 (s.eng.acc.extractLsb' 0 16) else s.eng.acc.extractLsb' 0 16 })

/-- R211, R212: a running state's step raises MF1 only on the engine's turn at an address whose read is not all
readable, and MF2 only on the host's turn by an idle START whose buffer passes 2^32. -/
def Obligations.ModelFaultsComeOnlyFrom : Prop :=
  ∀ (s : State) (f : Fault), s.running → step s = .fault f →
    (s.nextTurn.1 = .engine ∧ s.busy = true ∧ f = .unreadable s.eng.ptr ∧
      ∃ a ∈ s.stepReadAddresses, readable s.platform a = false) ∨
    (s.nextTurn.1 = .host ∧ s.busy = false ∧ f = .bufferWrap s.addr s.len ∧ 2 ^ 32 < s.addr.toNat + s.len.toNat ∧
      ∃ a v, s.take = some (a, v) ∧ isStart (decode a) = true)

/-! ### The checksum function -/

/-- R122: the laws of one fold. -/
def Obligations.OneFoldLaws : Prop :=
  ∀ v : Nat, fold16 v % 0xFFFF = v % 0xFFFF ∧ (fold16 v = 0 ↔ v = 0) ∧ (0xFFFF < v → fold16 v < v) ∧
    (v ≤ 0xFFFF → fold16 v = v)

/-- R123: the iterated fold stops at 16 bits, follows its equation, and needs at most two folds for 32 bits. -/
def Obligations.IteratedFoldConverges : Prop :=
  ∀ v : Nat, foldStar v ≤ 0xFFFF ∧ (v ≤ 0xFFFF → foldStar v = v) ∧ (0xFFFF < v → foldStar v = foldStar (fold16 v)) ∧
    (v ≤ 0xFFFFFFFF → fold16 v ≤ 0x1FFFE ∧ foldStar v = fold16 (fold16 v))

/-- R120, R121: the word sum is the sum of big-endian 16-bit words, an odd trailing byte being a high byte. -/
def Obligations.WordSumIsBigEndianWords : Prop :=
  (∀ b : Byte, wordSum [b] = b.toNat * 2 ^ 8) ∧
  (∀ (b0 b1 : Byte) (rest : List Byte), wordSum (b0 :: b1 :: rest) = b0.toNat * 2 ^ 8 + b1.toNat + wordSum rest) ∧
  (∀ (bytes : List Byte) (b : Byte), bytes.length % 2 = 0 → wordSum (bytes ++ [b]) = wordSum bytes + b.toNat * 2 ^ 8)

/-- R126: the closed form of CSUM; 0 only for all-zero bytes. -/
def Obligations.ChecksumClosedForm : Prop :=
  ∀ bytes : List Byte,
    (checksum bytes).toNat = (if wordSum bytes = 0 then 0 else 1 + (wordSum bytes - 1) % 0xFFFF) ∧
    (checksum bytes = 0 ↔ ∀ b ∈ bytes, b = 0) ∧
    (checksum bytes).toNat % 0xFFFF = wordSum bytes % 0xFFFF

/-- R127: +16 is one fold, commutative and associative, and 0 only for 0 and 0. -/
def Obligations.OnesComplementAddition : Prop :=
  ∀ a b c : Half, (plus16 a b).toNat = fold16 (a.toNat + b.toNat) ∧ plus16 a b = plus16 b a ∧
    plus16 (plus16 a b) c = plus16 a (plus16 b c) ∧ (plus16 a b = 0 ↔ a = 0 ∧ b = 0)

/-- R128, R136: composition at an even and at an odd split. -/
def Obligations.ChecksumComposes : Prop :=
  ∀ a b : List Byte,
    (a.length % 2 = 0 → checksum (a ++ b) = plus16 (checksum a) (checksum b)) ∧
    (a.length % 2 = 1 → checksum (a ++ b) = plus16 (checksum a) (swap16 (checksum b)))

/-- R129: the byte swap's laws. -/
def Obligations.ByteSwapLaws : Prop :=
  (∀ v : Half, (swap16 v).toNat = v.toNat % 2 ^ 8 * 2 ^ 8 + v.toNat / 2 ^ 8 ∧ swap16 (swap16 v) = v) ∧
  (∀ n : Nat, BitVec.ofNat 16 (foldStar (2 ^ 8 * n)) = swap16 (BitVec.ofNat 16 (foldStar n)))

/-- R131: the end-around-carry addition and its laws. -/
def Obligations.EndAroundCarryLaws : Prop :=
  ∀ a b : Word,
    (addEac a b).toNat = (a.toNat + b.toNat) % 2 ^ 32 + (a.toNat + b.toNat) / 2 ^ 32 ∧
    (addEac a b).toNat % 0xFFFF = (a.toNat + b.toNat) % 0xFFFF ∧ (addEac a b = 0 ↔ a = 0 ∧ b = 0)

/-- R132: fold timing does not change the result. -/
def Obligations.FoldTimingDoesNotMatter : Prop :=
  ∀ x y : Nat, x % 0xFFFF = y % 0xFFFF → (x = 0 ↔ y = 0) → foldStar x = foldStar y

/-- R124, R134, §8 property 6 of the source: the RFC 1071 vector. -/
def Obligations.RfcVector : Prop :=
  checksum [0x00, 0x01, 0xf2, 0x03, 0xf4, 0xf5, 0xf6, 0xf7] = 0xddf2 ∧ callerComplement 0xddf2 = 0x220d ∧
  checksum [] = 0

/-! ### Memory and the outside world -/

/-- R71: a write performed at the master port is what the location then holds, and every other location keeps its
byte; two memories in canonical form that hold the same bytes are one list. -/
def Obligations.MemoryHoldsWhatWasLastWritten : Prop :=
  (∀ (s : State) (rest : List Turn) (a : Word) (b : Byte), s.running → s.script = .agentWrite a b :: rest →
    ∃ m, step s = .next { s with script := rest, mem := m } ∧ m.read a.toNat = b ∧
      ∀ c, c ≠ a.toNat → m.read c = s.mem.read c) ∧
  (∀ m m' : Memory, Memory.wf m → Memory.wf m' → (∀ a, m.read a = m'.read a) → m = m')

/-- R74, R79: where COHERENT = true a host store is visible at the master port at once; where it is false the store
leaves every byte at the master port as it was until the host cleans that byte. Neither the store nor the clean touches
another byte of memory or anything of the block. -/
def Obligations.HostStoresBecomeVisible : Prop :=
  ∀ (s : State) (rest : List Turn) (a : Word) (b : Byte), s.running → s.hostStuck = false →
    s.script = .hostStore a b :: rest →
    ∃ t, step s = .next t ∧ t = { s with script := rest, mem := t.mem, hostCache := t.hostCache } ∧
      (s.platform.coherent = true → t.hostCache = s.hostCache ∧ t.mem.read a.toNat = b ∧
        ∀ c, c ≠ a.toNat → t.mem.read c = s.mem.read c) ∧
      (s.platform.coherent = false → t.mem = s.mem ∧
        ∀ rest', rest = .hostClean a :: rest' →
          ∃ u, step t = .next u ∧ u = { t with script := rest', mem := u.mem, hostCache := u.hostCache } ∧
            u.mem.read a.toNat = b ∧ ∀ c, c ≠ a.toNat → u.mem.read c = s.mem.read c)

/-- R78: the block never writes memory: only a write by another agent, a host store or a clean changes a byte. -/
def Obligations.BlockNeverWritesMemory : Prop :=
  ∀ s t : State, step s = .next t →
    t.mem = s.mem ∨ (∃ a b, s.nextTurn.1 = .agentWrite a b) ∨ (∃ a b, s.nextTurn.1 = .hostStore a b) ∨
      (∃ a, s.nextTurn.1 = .hostClean a)

/-! ### Reset -/

/-- R44: the reset values, on every platform. -/
def Obligations.ResetStateValues : Prop :=
  ∀ p : Platform, (State.resetOn p).addr = 0 ∧ (State.resetOn p).len = 0 ∧ (State.resetOn p).busy = false ∧
    (State.resetOn p).done = false ∧ (State.resetOn p).res = 0 ∧ (State.resetOn p).pending = none

/-- R240: a reset during a run sets every register to its reset value and discards the pending transaction; the
recorded faults, the refusal mark, memory and what completed reads returned stay. It comes with the bus path or
without it. -/
def Obligations.ResetTurnAbandonsTheOperation : Prop :=
  ∀ (s : State) (rest : List Turn) (busPath : Bool), s.running → s.script = .reset busPath :: rest →
    ∃ t, step s = .next t ∧ t.addr = 0 ∧ t.len = 0 ∧ t.busy = false ∧ t.done = false ∧ t.res = 0 ∧
      t.pending = none ∧ t.faults = s.faults ∧ t.refusalMark = s.refusalMark ∧ t.mem = s.mem ∧
      t.reads = s.reads ∧ t.platform = s.platform ∧ (∀ rest', runSteps 1 { t with script := .engine :: rest' } =
        .next { t with script := rest' })

/-- R241, U10, log entry 9: a host whose transaction a reset discarded waits for ever unless the bus path was reset with
the block: it has no further step of any kind, and every step but a reset of the bus path leaves it stuck. -/
def Obligations.DiscardedTransactionLeavesTheHostStuck : Prop :=
  (∀ (s : State) (rest : List Turn), s.running →
    (∀ a, s.pending = some a → s.script = .reset false :: rest → ∃ t, step s = .next t ∧ t.hostStuck = true) ∧
    (∀ b, s.pending = none → s.script = .reset b :: rest →
      ∃ t, step s = .next t ∧ t.hostStuck = (!b && s.hostStuck)) ∧
    (s.script = .reset true :: rest → ∃ t, step s = .next t ∧ t.hostStuck = false) ∧
    (∀ (turn : Turn), s.hostStuck = true → s.script = turn :: rest →
      (turn = .host ∨ (∃ z w p d, turn = .issue z w p d) ∨ ∃ a b, turn = .hostStore a b) →
      step s = .next { s with script := rest })) ∧
  (∀ s t : State, s.hostStuck = true → step s = .next t → s.nextTurn.1 ≠ .reset true → t.hostStuck = true)

/-! ### Rules of the whole machine -/

/-- R35: RES changes only by the engine's FINISH step and by reset. -/
def Obligations.OnlyFinishAndResetWriteResult : Prop :=
  ∀ s t : State, step s = .next t → t.res ≠ s.res →
    (s.nextTurn.1 = .engine ∧ s.busy = true ∧ engineKind s.eng = .finish) ∨ ∃ b, s.nextTurn.1 = .reset b

/-- R40: a flag changes only by START acceptance, which sets BUSY and clears DONE, by the FINISH step, which does the
opposite, and by reset. -/
def Obligations.OnlyStartFinishAndResetWriteFlags : Prop :=
  ∀ s t : State, step s = .next t → ¬ (t.busy = s.busy ∧ t.done = s.done) →
    (s.nextTurn.1 = .host ∧ s.busy = false ∧ t.busy = true ∧ t.done = false ∧
      ∃ a v, s.take = some (a, v) ∧ isStart (decode a) = true) ∨
    (s.nextTurn.1 = .engine ∧ engineKind s.eng = .finish ∧ s.busy = true ∧ t.busy = false ∧ t.done = true) ∨
    ∃ b, s.nextTurn.1 = .reset b ∧ t.busy = false ∧ t.done = false

/-- R43, R211: no step clears a recorded fault or the refusal mark, and a run that faults stays where it was with the
fault recorded. -/
def Obligations.RecordedFaultsStay : Prop :=
  (∀ s t : State, step s = .next t → t.faults = s.faults ∧ t.refusalMark = s.refusalMark) ∧
  (∀ (s : State) (f : Fault), s.running → step s = .fault f →
    ∀ k : Nat, runRecorded (k + 1) s = { s with faults := [f] }) ∧
  (∀ (s : State) (r : Refusal), s.running → step s = .refused r →
    ∀ k : Nat, runRecorded (k + 1) s = { s with refusalMark := some r })

/-- R245: once an operation was started, BUSY or DONE stands until a reset, so a STATUS poll never returns 0. -/
def Obligations.PollingNeverReadsZero : Prop :=
  ∀ s t : State, (s.busy = true ∨ s.done = true) → step s = .next t → (∀ b, s.nextTurn.1 ≠ .reset b) →
    t.busy = true ∨ t.done = true

/-- The state after reset meets the invariant, on every platform. -/
def Obligations.ResetMeetsTheInvariant : Prop := ∀ p : Platform, Inv (State.resetOn p)

/-- Every step keeps the invariant: the flags stay exclusive (R34), memory canonical, only a holdable transaction
waits (R41), RES is 0 until an operation has finished (R35), and the bytes still to be read lie in the address space
and have no side effects (R133, R68). -/
def Obligations.StepKeepsTheInvariant : Prop := ∀ s t : State, Inv s → step s = .next t → Inv t

/-! ### One whole operation -/

/-- R187: the engine's reads come in ascending order, each byte of the buffer once and none outside it, as one byte or
as an aligned word. -/
def Obligations.ReadsEachByteOnceInOrder : Prop :=
  ∀ (s : State) (a n : Word) (bytes : List Byte), Summing a n bytes s →
    let k := s.stepReadAddresses.length
    s.stepReadAddresses = List.range' (a.toNat + bytes.length) k ∧ bytes.length + k ≤ n.toNat ∧
      (k = 0 ∨ k = 1 ∨ (k = 4 ∧ (a.toNat + bytes.length) % 4 = 0)) ∧ s.stepReadBytes.length = k

/-- R188 under every interleaving (R75): START begins with no byte read; every step adds the bytes it reads; and at
FINISH, RES is CSUM of the byte values the reads returned, all of them. -/
def Obligations.ResultIsChecksumOfBytesAsRead : Prop :=
  (∀ s t : State, s.busy = false → exec .start s = .next t → Summing s.addr s.len [] t) ∧
  (∀ (s t : State) (a n : Word) (bytes : List Byte), Summing a n bytes s → step s = .next t → t.busy = true →
    Summing a n (bytes ++ s.stepReadBytes) t) ∧
  (∀ (s t : State) (a n : Word) (bytes : List Byte), Summing a n bytes s → step s = .next t → t.busy = false →
    (∃ b, s.nextTurn.1 = .reset b) ∨
      (t.res = checksum bytes ∧ t.done = true ∧ bytes.length = n.toNat))

/-- R186: the steps of an operation that nothing comes between: h head BYTE steps, the WORD steps, the tail BYTE steps,
f ≤ 2 folds and one FINISH, in that order. -/
def Obligations.OperationStepCount : Prop :=
  ∀ (s : State) (a n : Word), Alone a n s → a.toNat + n.toNat ≤ 2 ^ 32 →
    (∀ k < n.toNat, readable s.platform (a.toNat + k) = true) →
    let h := min n.toNat ((4 - a.toNat % 4) % 4)
    let w := (n.toNat - h) / 4
    let b := (n.toNat - h) % 4
    ∃ f ≤ 2, h + w + b + f + 1 ≤ min (n.toNat + 3) (n.toNat / 4 + 9) ∧
      (∀ j ≤ h + w + b + f, ∃ u, runSteps j s = .next u ∧ u.busy = true ∧ engineKind u.eng =
        if j < h then .byte else if j < h + w then .word else if j < h + w + b then .byte
        else if j < h + w + b + f then .fold else .finish) ∧
      ∃ t, runSteps (h + w + b + f + 1) s = .next t ∧ t.busy = false ∧ t.done = true

/-- R189: with nothing in between, the engine's steps come to the one atomic step, but for the hidden engine fields;
and where some byte of the buffer is not readable they come to MF1. -/
def Obligations.EngineRefinesTheAtomicOperation : Prop :=
  ∀ (s : State) (a n : Word), Alone a n s → a.toNat + n.toNat ≤ 2 ^ 32 →
    ((∀ k < n.toNat, readable s.platform (a.toNat + k) = true) →
      ∃ j ≤ n.toNat + 3, ∃ t, runSteps j s = .next t ∧
        t = { s.atomicOperation (s.mem.readBytes a.toNat n.toNat) with eng := t.eng }) ∧
    ((∃ k < n.toNat, readable s.platform (a.toNat + k) = false) →
      ∃ (j : Nat) (address : Word), runSteps j s = .fault (.unreadable address) ∧
        a.toNat ≤ address.toNat ∧ address.toNat < a.toNat + n.toNat)

/-- R167: a hold ends: while an operation runs with all its bytes readable and nothing else comes in, BUSY is 0 after
at most REM + 3 steps, and a transaction waiting at the register interface is still there. -/
def Obligations.HoldAlwaysEnds : Prop :=
  ∀ (s : State) (a n : Word), s.running → s.script = [] → Latched a n s →
    (∀ k < n.toNat, readable s.platform (a.toNat + k) = true) →
    ∃ j ≤ s.eng.rem.toNat + 3, ∃ t, runSteps j s = .next t ∧ t.busy = false ∧ t.done = true ∧
      t.pending = s.pending ∧ t.queue = s.queue

/-- R100: the pseudo-instruction CSUM on an idle block is a synchronous call: its RESULT read returns CSUM of the
buffer, and the run is then at its end (R254). -/
def Obligations.CsumCallReturnsTheChecksum : Prop :=
  ∀ (s : State) (a n : Word), IdleWith (csum a n) s → CallerContract s.platform a n →
    ∃ j ≤ n.toNat + 7, ∃ t, runSteps j s = .next t ∧ t.final ∧
      t.reads = s.reads ++ [(checksum (s.mem.readBytes a.toNat n.toNat)).setWidth 32] ∧
      t.res = checksum (s.mem.readBytes a.toNat n.toNat) ∧ t.done = true ∧ t.addr = a ∧ t.len = n ∧ t.mem = s.mem

/-- R130, R42: the value CSUM returns depends on the bytes alone: not on the address, nor on what any earlier
operation left. -/
def Obligations.ResultDependsOnTheBytesAlone : Prop :=
  ∀ (s s' : State) (a a' n : Word), IdleWith (csum a n) s → IdleWith (csum a' n) s' →
    CallerContract s.platform a n → CallerContract s'.platform a' n →
    s.mem.readBytes a.toNat n.toNat = s'.mem.readBytes a'.toNat n.toNat →
    ∃ j j' t t' v, runSteps j s = .next t ∧ runSteps j' s' = .next t' ∧
      t.reads = s.reads ++ [v] ∧ t'.reads = s'.reads ++ [v] ∧ t.res = t'.res ∧ t.final ∧ t'.final
end

