-- ==== Sys2Proof/Laws/Decode.lean ====
section
/-! SUPPORT. The fields of a descriptor and of a CMD word read back what was laid down, and what the decoder does on a
descriptor made of its fields. -/

namespace Sys2Proof

/-- Concatenation as a sum (R7). -/
theorem append_toNat {m n : Nat} (x : BitVec m) (y : BitVec n) : (x ++ y).toNat = x.toNat * 2 ^ n + y.toNat := by
  rw [BitVec.toNat_append, ← Nat.shiftLeft_add_eq_or_of_lt y.isLt, Nat.shiftLeft_eq]

theorem makeDesc_toNat (z : BitVec 2) (w : Bool) (o : BitVec 12) :
    (makeDesc z w o).toNat = z.toNat * 8192 + w.toNat * 4096 + o.toNat := by
  unfold makeDesc
  rw [append_toNat, append_toNat, BitVec.toNat_ofBool]
  ring

@[simp] theorem descSize_makeDesc (z : BitVec 2) (w : Bool) (o : BitVec 12) : descSize (makeDesc z w o) = z := by
  have hz := z.isLt
  have ho := o.isLt
  have hw := w.toNat_le
  apply BitVec.eq_of_toNat_eq
  rw [descSize, BitVec.extractLsb'_toNat, makeDesc_toNat, Nat.shiftRight_eq_div_pow]
  omega

@[simp] theorem descWrite_makeDesc (z : BitVec 2) (w : Bool) (o : BitVec 12) : descWrite (makeDesc z w o) = w := by
  have ho := o.isLt
  rw [descWrite, BitVec.getLsbD, Nat.testBit_eq_decide_div_mod_eq, makeDesc_toNat]
  cases w
  · simp only [Bool.toNat_false, decide_eq_false_iff_not]
    omega
  · simp only [Bool.toNat_true, decide_eq_true_eq]
    omega

@[simp] theorem descOffset_makeDesc (z : BitVec 2) (w : Bool) (o : BitVec 12) : descOffset (makeDesc z w o) = o := by
  have ho := o.isLt
  apply BitVec.eq_of_toNat_eq
  rw [descOffset, BitVec.extractLsb'_toNat, makeDesc_toNat, Nat.shiftRight_eq_div_pow]
  omega

@[simp] theorem offsetIndex_append (index : BitVec 10) : offsetIndex (index ++ (0 : BitVec 2)) = index := by
  have hi := index.isLt
  apply BitVec.eq_of_toNat_eq
  rw [offsetIndex, BitVec.extractLsb'_toNat, append_toNat, Nat.shiftRight_eq_div_pow]
  simp only [BitVec.ofNat_eq_ofNat, BitVec.toNat_ofNat]
  omega

/-- An offset made of a register index is 4-aligned. -/
theorem offset_aligned (index : BitVec 10) :
    (index ++ (0 : BitVec 2)).getLsbD 0 = false ∧ (index ++ (0 : BitVec 2)).getLsbD 1 = false := by
  constructor <;> rw [BitVec.getLsbD, Nat.testBit_eq_decide_div_mod_eq, append_toNat, decide_eq_false_iff_not] <;>
    simp only [BitVec.ofNat_eq_ofNat, BitVec.toNat_ofNat] <;> omega

@[simp] theorem cmdOp_setWidth (op : BitVec 4) : cmdOp (op.setWidth 32) = op := by
  have ho := op.isLt
  apply BitVec.eq_of_toNat_eq
  rw [cmdOp, BitVec.extractLsb'_toNat, BitVec.toNat_setWidth, Nat.shiftRight_eq_div_pow]
  omega

/-- A direction is read back from bit W and the DATA. -/
@[simp] theorem descDir_makeDesc (z : BitVec 2) (o : BitVec 12) (dir : Dir) :
    descDir (makeDesc z dir.isWrite o) dir.data = dir := by
  cases dir <;> simp [descDir, Dir.isWrite, Dir.data]

/-- What the decoder does on a descriptor made of its fields (R92). -/
theorem decode_encodeAt (z : BitVec 2) (o : BitVec 12) (dir : Dir) :
    decode (encodeAt z o dir) = decodeFields z o dir := by
  simp [decode, encodeAt, decodeReg]

/-- A legal descriptor selects its register (R92 steps 3 and 4). -/
theorem decode_encodeIndex (index : BitVec 10) (dir : Dir) :
    decode (encodeIndex index dir) = decodeIndex index dir := by
  unfold encodeIndex
  rw [decode_encodeAt]
  show (if (index ++ (0 : BitVec 2)).getLsbD 0 = true then _ else
    if (index ++ (0 : BitVec 2)).getLsbD 1 = true then _ else _) = _
  rw [(offset_aligned index).1, (offset_aligned index).2, offsetIndex_append]
  rfl

/-- What the decoder does on a CMD word made of its OP (R93, R96). -/
theorem decode_encodeCmd (op : BitVec 4) :
    decode (encodeCmd op) = decodeOp op := by
  simp [decode, encodeCmd, decodeCmd]

/-! ### Ranges -/

theorem indexIn_iff {lo hi : Nat} {index : BitVec 10} :
    indexIn lo hi index = true ↔ lo ≤ index.toNat ∧ index.toNat ≤ hi := by
  simp [indexIn]

theorem opIn_iff {lo hi : Nat} {op : BitVec 4} : opIn lo hi op = true ↔ lo ≤ op.toNat ∧ op.toNat ≤ hi := by
  simp [opIn]

/-- A register index past 5 is reserved, and its row is its range (R92, R95). -/
theorem decodeIndex_reserved {index : BitVec 10} (h : 6 ≤ index.toNat) (dir : Dir) :
    decodeIndex index dir =
      if index.toNat < 8 then .rsvdIndex6to7 index dir
      else if index.toNat < 16 then .rsvdIndex8to15 index dir
      else if index.toNat < 32 then .rsvdIndex16to31 index dir
      else if index.toNat < 64 then .rsvdIndex32to63 index dir
      else if index.toNat < 128 then .rsvdIndex64to127 index dir
      else if index.toNat < 256 then .rsvdIndex128to255 index dir
      else if index.toNat < 512 then .rsvdIndex256to511 index dir
      else .rsvdIndex512to1023 index dir := by
  unfold decodeIndex
  split <;> first | omega | rfl

end Sys2Proof
end

