-- ==== Sys2Proof/Laws/Checksum.lean ====
section
/-! SUPPORT. The arithmetic read as naturals: what each operator of 40_checksum_function.md is as quotients and
remainders. -/

namespace Sys2Proof.Machine

theorem fold16_eq (v : Nat) : fold16 v = v % 65536 + v / 65536 := by
  unfold fold16
  rw [show (0xFFFF : Nat) = 2 ^ 16 - 1 from rfl, Nat.and_two_pow_sub_one_eq_mod, Nat.shiftRight_eq_div_pow]

theorem foldUpTo_of_le {v : Nat} (h : v ≤ 0xFFFF) (fuel : Nat) : foldUpTo fuel v = v := by
  cases fuel <;> simp [foldUpTo, h]

theorem foldUpTo_succ_of_gt {v : Nat} (h : 0xFFFF < v) (fuel : Nat) :
    foldUpTo (fuel + 1) v = foldUpTo fuel (fold16 v) := by
  simp [foldUpTo, Nat.not_le.2 h]

theorem addEac_toNat (a b : Word) :
    (addEac a b).toNat = (a.toNat + b.toNat) % 4294967296 + (a.toNat + b.toNat) / 4294967296 := by
  have ha := a.isLt
  have hb := b.isLt
  unfold addEac
  rw [BitVec.toNat_ofNat, Nat.mod_eq_of_lt (by omega)]
  rfl

theorem foldWord_toNat (v : Word) : (foldWord v).toNat = fold16 v.toNat := by
  have hv := v.isLt
  unfold foldWord
  rw [BitVec.toNat_ofNat, fold16_eq, Nat.mod_eq_of_lt (by omega)]

theorem be32_toNat (b0 b1 b2 b3 : Byte) :
    (be32 b0 b1 b2 b3).toNat = b0.toNat * 2 ^ 24 + b1.toNat * 2 ^ 16 + b2.toNat * 2 ^ 8 + b3.toNat := by
  unfold be32
  rw [append_toNat, append_toNat, append_toNat]
  ring

theorem swap16_toNat (v : Half) : (swap16 v).toNat = v.toNat % 256 * 256 + v.toNat / 256 := by
  have hv := v.isLt
  unfold swap16
  rw [append_toNat, BitVec.extractLsb'_toNat, BitVec.extractLsb'_toNat]
  simp only [Nat.shiftRight_eq_div_pow]
  omega

theorem isOdd_eq (w : Word) : isOdd w = decide (w.toNat % 2 = 1) := by
  simp [isOdd, BitVec.getLsbD, Nat.testBit_zero]

theorem byteAddend_toNat (a : Word) (v : Byte) :
    (byteAddend a v).toNat = if isOdd a then v.toNat else v.toNat * 2 ^ 8 := by
  have hv := v.isLt
  unfold byteAddend
  split <;> simp [BitVec.toNat_setWidth, Nat.shiftLeft_eq] <;> omega

theorem weightedSum_append (high : Bool) (xs ys : List Byte) :
    weightedSum high (xs ++ ys) =
      weightedSum high xs + weightedSum (if xs.length % 2 = 0 then high else !high) ys := by
  induction xs generalizing high with
  | nil => simp [weightedSum]
  | cons x rest ih =>
    simp only [List.cons_append, weightedSum, ih, List.length_cons]
    by_cases h : rest.length % 2 = 0
    · have h' : ¬ (rest.length + 1) % 2 = 0 := by omega
      simp [h, h']
      omega
    · have h' : (rest.length + 1) % 2 = 0 := by omega
      simp [h, h']
      omega

end Sys2Proof.Machine
end

