-- ==== Sys2Proof/Laws/State.lean ====
section
/-! SUPPORT. One lemma per field per update of the state, so that no later proof unfolds a record update. -/

namespace Sys2Proof.Machine

/-! ### setAddr -/

@[simp] theorem State.setAddr_addr (s : State) (v : Word) : (s.setAddr v).addr = v := rfl
@[simp] theorem State.setAddr_len (s : State) (v : Word) : (s.setAddr v).len = s.len := rfl
@[simp] theorem State.setAddr_busy (s : State) (v : Word) : (s.setAddr v).busy = s.busy := rfl
@[simp] theorem State.setAddr_done (s : State) (v : Word) : (s.setAddr v).done = s.done := rfl
@[simp] theorem State.setAddr_res (s : State) (v : Word) : (s.setAddr v).res = s.res := rfl
@[simp] theorem State.setAddr_eng (s : State) (v : Word) : (s.setAddr v).eng = s.eng := rfl
@[simp] theorem State.setAddr_pending (s : State) (v : Word) : (s.setAddr v).pending = s.pending := rfl
@[simp] theorem State.setAddr_queue (s : State) (v : Word) : (s.setAddr v).queue = s.queue := rfl
@[simp] theorem State.setAddr_hostStuck (s : State) (v : Word) : (s.setAddr v).hostStuck = s.hostStuck := rfl
@[simp] theorem State.setAddr_mem (s : State) (v : Word) : (s.setAddr v).mem = s.mem := rfl
@[simp] theorem State.setAddr_hostCache (s : State) (v : Word) : (s.setAddr v).hostCache = s.hostCache := rfl
@[simp] theorem State.setAddr_platform (s : State) (v : Word) : (s.setAddr v).platform = s.platform := rfl
@[simp] theorem State.setAddr_reads (s : State) (v : Word) : (s.setAddr v).reads = s.reads := rfl
@[simp] theorem State.setAddr_script (s : State) (v : Word) : (s.setAddr v).script = s.script := rfl
@[simp] theorem State.setAddr_faults (s : State) (v : Word) : (s.setAddr v).faults = s.faults := rfl
@[simp] theorem State.setAddr_refusalMark (s : State) (v : Word) : (s.setAddr v).refusalMark = s.refusalMark := rfl
@[simp] theorem State.setAddr_free (s : State) (v : Word) : (s.setAddr v).free = s.free := rfl

/-! ### setLen -/

@[simp] theorem State.setLen_addr (s : State) (v : Word) : (s.setLen v).addr = s.addr := rfl
@[simp] theorem State.setLen_len (s : State) (v : Word) : (s.setLen v).len = v := rfl
@[simp] theorem State.setLen_busy (s : State) (v : Word) : (s.setLen v).busy = s.busy := rfl
@[simp] theorem State.setLen_done (s : State) (v : Word) : (s.setLen v).done = s.done := rfl
@[simp] theorem State.setLen_res (s : State) (v : Word) : (s.setLen v).res = s.res := rfl
@[simp] theorem State.setLen_eng (s : State) (v : Word) : (s.setLen v).eng = s.eng := rfl
@[simp] theorem State.setLen_pending (s : State) (v : Word) : (s.setLen v).pending = s.pending := rfl
@[simp] theorem State.setLen_queue (s : State) (v : Word) : (s.setLen v).queue = s.queue := rfl
@[simp] theorem State.setLen_hostStuck (s : State) (v : Word) : (s.setLen v).hostStuck = s.hostStuck := rfl
@[simp] theorem State.setLen_mem (s : State) (v : Word) : (s.setLen v).mem = s.mem := rfl
@[simp] theorem State.setLen_hostCache (s : State) (v : Word) : (s.setLen v).hostCache = s.hostCache := rfl
@[simp] theorem State.setLen_platform (s : State) (v : Word) : (s.setLen v).platform = s.platform := rfl
@[simp] theorem State.setLen_reads (s : State) (v : Word) : (s.setLen v).reads = s.reads := rfl
@[simp] theorem State.setLen_script (s : State) (v : Word) : (s.setLen v).script = s.script := rfl
@[simp] theorem State.setLen_faults (s : State) (v : Word) : (s.setLen v).faults = s.faults := rfl
@[simp] theorem State.setLen_refusalMark (s : State) (v : Word) : (s.setLen v).refusalMark = s.refusalMark := rfl
@[simp] theorem State.setLen_free (s : State) (v : Word) : (s.setLen v).free = s.free := rfl

/-! ### setRes -/

@[simp] theorem State.setRes_addr (s : State) (v : Half) : (s.setRes v).addr = s.addr := rfl
@[simp] theorem State.setRes_len (s : State) (v : Half) : (s.setRes v).len = s.len := rfl
@[simp] theorem State.setRes_busy (s : State) (v : Half) : (s.setRes v).busy = s.busy := rfl
@[simp] theorem State.setRes_done (s : State) (v : Half) : (s.setRes v).done = s.done := rfl
@[simp] theorem State.setRes_res (s : State) (v : Half) : (s.setRes v).res = v := rfl
@[simp] theorem State.setRes_eng (s : State) (v : Half) : (s.setRes v).eng = s.eng := rfl
@[simp] theorem State.setRes_pending (s : State) (v : Half) : (s.setRes v).pending = s.pending := rfl
@[simp] theorem State.setRes_queue (s : State) (v : Half) : (s.setRes v).queue = s.queue := rfl
@[simp] theorem State.setRes_hostStuck (s : State) (v : Half) : (s.setRes v).hostStuck = s.hostStuck := rfl
@[simp] theorem State.setRes_mem (s : State) (v : Half) : (s.setRes v).mem = s.mem := rfl
@[simp] theorem State.setRes_hostCache (s : State) (v : Half) : (s.setRes v).hostCache = s.hostCache := rfl
@[simp] theorem State.setRes_platform (s : State) (v : Half) : (s.setRes v).platform = s.platform := rfl
@[simp] theorem State.setRes_reads (s : State) (v : Half) : (s.setRes v).reads = s.reads := rfl
@[simp] theorem State.setRes_script (s : State) (v : Half) : (s.setRes v).script = s.script := rfl
@[simp] theorem State.setRes_faults (s : State) (v : Half) : (s.setRes v).faults = s.faults := rfl
@[simp] theorem State.setRes_refusalMark (s : State) (v : Half) : (s.setRes v).refusalMark = s.refusalMark := rfl
@[simp] theorem State.setRes_free (s : State) (v : Half) : (s.setRes v).free = s.free := rfl

/-! ### setEng -/

@[simp] theorem State.setEng_addr (s : State) (e : Engine) : (s.setEng e).addr = s.addr := rfl
@[simp] theorem State.setEng_len (s : State) (e : Engine) : (s.setEng e).len = s.len := rfl
@[simp] theorem State.setEng_busy (s : State) (e : Engine) : (s.setEng e).busy = s.busy := rfl
@[simp] theorem State.setEng_done (s : State) (e : Engine) : (s.setEng e).done = s.done := rfl
@[simp] theorem State.setEng_res (s : State) (e : Engine) : (s.setEng e).res = s.res := rfl
@[simp] theorem State.setEng_eng (s : State) (e : Engine) : (s.setEng e).eng = e := rfl
@[simp] theorem State.setEng_pending (s : State) (e : Engine) : (s.setEng e).pending = s.pending := rfl
@[simp] theorem State.setEng_queue (s : State) (e : Engine) : (s.setEng e).queue = s.queue := rfl
@[simp] theorem State.setEng_hostStuck (s : State) (e : Engine) : (s.setEng e).hostStuck = s.hostStuck := rfl
@[simp] theorem State.setEng_mem (s : State) (e : Engine) : (s.setEng e).mem = s.mem := rfl
@[simp] theorem State.setEng_hostCache (s : State) (e : Engine) : (s.setEng e).hostCache = s.hostCache := rfl
@[simp] theorem State.setEng_platform (s : State) (e : Engine) : (s.setEng e).platform = s.platform := rfl
@[simp] theorem State.setEng_reads (s : State) (e : Engine) : (s.setEng e).reads = s.reads := rfl
@[simp] theorem State.setEng_script (s : State) (e : Engine) : (s.setEng e).script = s.script := rfl
@[simp] theorem State.setEng_faults (s : State) (e : Engine) : (s.setEng e).faults = s.faults := rfl
@[simp] theorem State.setEng_refusalMark (s : State) (e : Engine) : (s.setEng e).refusalMark = s.refusalMark := rfl
@[simp] theorem State.setEng_free (s : State) (e : Engine) : (s.setEng e).free = s.free := rfl

/-! ### complete -/

@[simp] theorem State.complete_addr (s : State) : (s.complete).addr = s.addr := rfl
@[simp] theorem State.complete_len (s : State) : (s.complete).len = s.len := rfl
@[simp] theorem State.complete_busy (s : State) : (s.complete).busy = s.busy := rfl
@[simp] theorem State.complete_done (s : State) : (s.complete).done = s.done := rfl
@[simp] theorem State.complete_res (s : State) : (s.complete).res = s.res := rfl
@[simp] theorem State.complete_eng (s : State) : (s.complete).eng = s.eng := rfl
@[simp] theorem State.complete_pending (s : State) : (s.complete).pending = none := rfl
@[simp] theorem State.complete_queue (s : State) : (s.complete).queue = s.queue := rfl
@[simp] theorem State.complete_hostStuck (s : State) : (s.complete).hostStuck = s.hostStuck := rfl
@[simp] theorem State.complete_mem (s : State) : (s.complete).mem = s.mem := rfl
@[simp] theorem State.complete_hostCache (s : State) : (s.complete).hostCache = s.hostCache := rfl
@[simp] theorem State.complete_platform (s : State) : (s.complete).platform = s.platform := rfl
@[simp] theorem State.complete_reads (s : State) : (s.complete).reads = s.reads := rfl
@[simp] theorem State.complete_script (s : State) : (s.complete).script = s.script := rfl
@[simp] theorem State.complete_faults (s : State) : (s.complete).faults = s.faults := rfl
@[simp] theorem State.complete_refusalMark (s : State) : (s.complete).refusalMark = s.refusalMark := rfl
@[simp] theorem State.complete_free (s : State) : (s.complete).free = s.free := rfl

/-! ### reply -/

@[simp] theorem State.reply_addr (s : State) (v : Word) : (s.reply v).addr = s.addr := rfl
@[simp] theorem State.reply_len (s : State) (v : Word) : (s.reply v).len = s.len := rfl
@[simp] theorem State.reply_busy (s : State) (v : Word) : (s.reply v).busy = s.busy := rfl
@[simp] theorem State.reply_done (s : State) (v : Word) : (s.reply v).done = s.done := rfl
@[simp] theorem State.reply_res (s : State) (v : Word) : (s.reply v).res = s.res := rfl
@[simp] theorem State.reply_eng (s : State) (v : Word) : (s.reply v).eng = s.eng := rfl
@[simp] theorem State.reply_pending (s : State) (v : Word) : (s.reply v).pending = none := rfl
@[simp] theorem State.reply_queue (s : State) (v : Word) : (s.reply v).queue = s.queue := rfl
@[simp] theorem State.reply_hostStuck (s : State) (v : Word) : (s.reply v).hostStuck = s.hostStuck := rfl
@[simp] theorem State.reply_mem (s : State) (v : Word) : (s.reply v).mem = s.mem := rfl
@[simp] theorem State.reply_hostCache (s : State) (v : Word) : (s.reply v).hostCache = s.hostCache := rfl
@[simp] theorem State.reply_platform (s : State) (v : Word) : (s.reply v).platform = s.platform := rfl
@[simp] theorem State.reply_reads (s : State) (v : Word) : (s.reply v).reads = s.reads ++ [v] := rfl
@[simp] theorem State.reply_script (s : State) (v : Word) : (s.reply v).script = s.script := rfl
@[simp] theorem State.reply_faults (s : State) (v : Word) : (s.reply v).faults = s.faults := rfl
@[simp] theorem State.reply_refusalMark (s : State) (v : Word) : (s.reply v).refusalMark = s.refusalMark := rfl
@[simp] theorem State.reply_free (s : State) (v : Word) : (s.reply v).free = s.free := rfl

/-! ### flagsStarted -/

@[simp] theorem State.flagsStarted_addr (s : State) : (s.flagsStarted).addr = s.addr := rfl
@[simp] theorem State.flagsStarted_len (s : State) : (s.flagsStarted).len = s.len := rfl
@[simp] theorem State.flagsStarted_busy (s : State) : (s.flagsStarted).busy = true := rfl
@[simp] theorem State.flagsStarted_done (s : State) : (s.flagsStarted).done = false := rfl
@[simp] theorem State.flagsStarted_res (s : State) : (s.flagsStarted).res = s.res := rfl
@[simp] theorem State.flagsStarted_eng (s : State) : (s.flagsStarted).eng = s.eng := rfl
@[simp] theorem State.flagsStarted_pending (s : State) : (s.flagsStarted).pending = s.pending := rfl
@[simp] theorem State.flagsStarted_queue (s : State) : (s.flagsStarted).queue = s.queue := rfl
@[simp] theorem State.flagsStarted_hostStuck (s : State) : (s.flagsStarted).hostStuck = s.hostStuck := rfl
@[simp] theorem State.flagsStarted_mem (s : State) : (s.flagsStarted).mem = s.mem := rfl
@[simp] theorem State.flagsStarted_hostCache (s : State) : (s.flagsStarted).hostCache = s.hostCache := rfl
@[simp] theorem State.flagsStarted_platform (s : State) : (s.flagsStarted).platform = s.platform := rfl
@[simp] theorem State.flagsStarted_reads (s : State) : (s.flagsStarted).reads = s.reads := rfl
@[simp] theorem State.flagsStarted_script (s : State) : (s.flagsStarted).script = s.script := rfl
@[simp] theorem State.flagsStarted_faults (s : State) : (s.flagsStarted).faults = s.faults := rfl
@[simp] theorem State.flagsStarted_refusalMark (s : State) : (s.flagsStarted).refusalMark = s.refusalMark := rfl
@[simp] theorem State.flagsStarted_free (s : State) : (s.flagsStarted).free = s.free := rfl

/-! ### flagsFinished -/

@[simp] theorem State.flagsFinished_addr (s : State) : (s.flagsFinished).addr = s.addr := rfl
@[simp] theorem State.flagsFinished_len (s : State) : (s.flagsFinished).len = s.len := rfl
@[simp] theorem State.flagsFinished_busy (s : State) : (s.flagsFinished).busy = false := rfl
@[simp] theorem State.flagsFinished_done (s : State) : (s.flagsFinished).done = true := rfl
@[simp] theorem State.flagsFinished_res (s : State) : (s.flagsFinished).res = s.res := rfl
@[simp] theorem State.flagsFinished_eng (s : State) : (s.flagsFinished).eng = s.eng := rfl
@[simp] theorem State.flagsFinished_pending (s : State) : (s.flagsFinished).pending = s.pending := rfl
@[simp] theorem State.flagsFinished_queue (s : State) : (s.flagsFinished).queue = s.queue := rfl
@[simp] theorem State.flagsFinished_hostStuck (s : State) : (s.flagsFinished).hostStuck = s.hostStuck := rfl
@[simp] theorem State.flagsFinished_mem (s : State) : (s.flagsFinished).mem = s.mem := rfl
@[simp] theorem State.flagsFinished_hostCache (s : State) : (s.flagsFinished).hostCache = s.hostCache := rfl
@[simp] theorem State.flagsFinished_platform (s : State) : (s.flagsFinished).platform = s.platform := rfl
@[simp] theorem State.flagsFinished_reads (s : State) : (s.flagsFinished).reads = s.reads := rfl
@[simp] theorem State.flagsFinished_script (s : State) : (s.flagsFinished).script = s.script := rfl
@[simp] theorem State.flagsFinished_faults (s : State) : (s.flagsFinished).faults = s.faults := rfl
@[simp] theorem State.flagsFinished_refusalMark (s : State) : (s.flagsFinished).refusalMark = s.refusalMark := rfl
@[simp] theorem State.flagsFinished_free (s : State) : (s.flagsFinished).free = s.free := rfl

/-! ### flagsReset -/

@[simp] theorem State.flagsReset_addr (s : State) : (s.flagsReset).addr = s.addr := rfl
@[simp] theorem State.flagsReset_len (s : State) : (s.flagsReset).len = s.len := rfl
@[simp] theorem State.flagsReset_busy (s : State) : (s.flagsReset).busy = false := rfl
@[simp] theorem State.flagsReset_done (s : State) : (s.flagsReset).done = false := rfl
@[simp] theorem State.flagsReset_res (s : State) : (s.flagsReset).res = s.res := rfl
@[simp] theorem State.flagsReset_eng (s : State) : (s.flagsReset).eng = s.eng := rfl
@[simp] theorem State.flagsReset_pending (s : State) : (s.flagsReset).pending = s.pending := rfl
@[simp] theorem State.flagsReset_queue (s : State) : (s.flagsReset).queue = s.queue := rfl
@[simp] theorem State.flagsReset_hostStuck (s : State) : (s.flagsReset).hostStuck = s.hostStuck := rfl
@[simp] theorem State.flagsReset_mem (s : State) : (s.flagsReset).mem = s.mem := rfl
@[simp] theorem State.flagsReset_hostCache (s : State) : (s.flagsReset).hostCache = s.hostCache := rfl
@[simp] theorem State.flagsReset_platform (s : State) : (s.flagsReset).platform = s.platform := rfl
@[simp] theorem State.flagsReset_reads (s : State) : (s.flagsReset).reads = s.reads := rfl
@[simp] theorem State.flagsReset_script (s : State) : (s.flagsReset).script = s.script := rfl
@[simp] theorem State.flagsReset_faults (s : State) : (s.flagsReset).faults = s.faults := rfl
@[simp] theorem State.flagsReset_refusalMark (s : State) : (s.flagsReset).refusalMark = s.refusalMark := rfl
@[simp] theorem State.flagsReset_free (s : State) : (s.flagsReset).free = s.free := rfl

/-! ### startAccepted -/

@[simp] theorem State.startAccepted_addr (s : State) : (s.startAccepted).addr = s.addr := rfl
@[simp] theorem State.startAccepted_len (s : State) : (s.startAccepted).len = s.len := rfl
@[simp] theorem State.startAccepted_busy (s : State) : (s.startAccepted).busy = true := rfl
@[simp] theorem State.startAccepted_done (s : State) : (s.startAccepted).done = false := rfl
@[simp] theorem State.startAccepted_res (s : State) : (s.startAccepted).res = s.res := rfl
@[simp] theorem State.startAccepted_eng (s : State) : (s.startAccepted).eng = { ptr := s.addr, rem := s.len, acc := 0, swap := isOdd s.addr } := rfl
@[simp] theorem State.startAccepted_pending (s : State) : (s.startAccepted).pending = s.pending := rfl
@[simp] theorem State.startAccepted_queue (s : State) : (s.startAccepted).queue = s.queue := rfl
@[simp] theorem State.startAccepted_hostStuck (s : State) : (s.startAccepted).hostStuck = s.hostStuck := rfl
@[simp] theorem State.startAccepted_mem (s : State) : (s.startAccepted).mem = s.mem := rfl
@[simp] theorem State.startAccepted_hostCache (s : State) : (s.startAccepted).hostCache = s.hostCache := rfl
@[simp] theorem State.startAccepted_platform (s : State) : (s.startAccepted).platform = s.platform := rfl
@[simp] theorem State.startAccepted_reads (s : State) : (s.startAccepted).reads = s.reads := rfl
@[simp] theorem State.startAccepted_script (s : State) : (s.startAccepted).script = s.script := rfl
@[simp] theorem State.startAccepted_faults (s : State) : (s.startAccepted).faults = s.faults := rfl
@[simp] theorem State.startAccepted_refusalMark (s : State) : (s.startAccepted).refusalMark = s.refusalMark := rfl
@[simp] theorem State.startAccepted_free (s : State) : (s.startAccepted).free = s.free := rfl

/-! ### writeByte -/

@[simp] theorem State.writeByte_addr (s : State) (a : Nat) (b : Byte) : (s.writeByte a b).addr = s.addr := rfl
@[simp] theorem State.writeByte_len (s : State) (a : Nat) (b : Byte) : (s.writeByte a b).len = s.len := rfl
@[simp] theorem State.writeByte_busy (s : State) (a : Nat) (b : Byte) : (s.writeByte a b).busy = s.busy := rfl
@[simp] theorem State.writeByte_done (s : State) (a : Nat) (b : Byte) : (s.writeByte a b).done = s.done := rfl
@[simp] theorem State.writeByte_res (s : State) (a : Nat) (b : Byte) : (s.writeByte a b).res = s.res := rfl
@[simp] theorem State.writeByte_eng (s : State) (a : Nat) (b : Byte) : (s.writeByte a b).eng = s.eng := rfl
@[simp] theorem State.writeByte_pending (s : State) (a : Nat) (b : Byte) : (s.writeByte a b).pending = s.pending := rfl
@[simp] theorem State.writeByte_queue (s : State) (a : Nat) (b : Byte) : (s.writeByte a b).queue = s.queue := rfl
@[simp] theorem State.writeByte_hostStuck (s : State) (a : Nat) (b : Byte) : (s.writeByte a b).hostStuck = s.hostStuck := rfl
@[simp] theorem State.writeByte_mem (s : State) (a : Nat) (b : Byte) : (s.writeByte a b).mem = s.mem.write a b := rfl
@[simp] theorem State.writeByte_hostCache (s : State) (a : Nat) (b : Byte) : (s.writeByte a b).hostCache = s.hostCache := rfl
@[simp] theorem State.writeByte_platform (s : State) (a : Nat) (b : Byte) : (s.writeByte a b).platform = s.platform := rfl
@[simp] theorem State.writeByte_reads (s : State) (a : Nat) (b : Byte) : (s.writeByte a b).reads = s.reads := rfl
@[simp] theorem State.writeByte_script (s : State) (a : Nat) (b : Byte) : (s.writeByte a b).script = s.script := rfl
@[simp] theorem State.writeByte_faults (s : State) (a : Nat) (b : Byte) : (s.writeByte a b).faults = s.faults := rfl
@[simp] theorem State.writeByte_refusalMark (s : State) (a : Nat) (b : Byte) : (s.writeByte a b).refusalMark = s.refusalMark := rfl
@[simp] theorem State.writeByte_free (s : State) (a : Nat) (b : Byte) : (s.writeByte a b).free = s.free := rfl

/-! ### resetBlock -/

@[simp] theorem State.resetBlock_addr (s : State) : (s.resetBlock).addr = 0 := rfl
@[simp] theorem State.resetBlock_len (s : State) : (s.resetBlock).len = 0 := rfl
@[simp] theorem State.resetBlock_busy (s : State) : (s.resetBlock).busy = false := rfl
@[simp] theorem State.resetBlock_done (s : State) : (s.resetBlock).done = false := rfl
@[simp] theorem State.resetBlock_res (s : State) : (s.resetBlock).res = 0 := rfl
@[simp] theorem State.resetBlock_eng (s : State) : (s.resetBlock).eng = freeEngine s.free := rfl
@[simp] theorem State.resetBlock_pending (s : State) : (s.resetBlock).pending = none := rfl
@[simp] theorem State.resetBlock_queue (s : State) : (s.resetBlock).queue = s.queue := rfl
@[simp] theorem State.resetBlock_hostStuck (s : State) : (s.resetBlock).hostStuck = s.hostStuck := rfl
@[simp] theorem State.resetBlock_mem (s : State) : (s.resetBlock).mem = s.mem := rfl
@[simp] theorem State.resetBlock_hostCache (s : State) : (s.resetBlock).hostCache = s.hostCache := rfl
@[simp] theorem State.resetBlock_platform (s : State) : (s.resetBlock).platform = s.platform := rfl
@[simp] theorem State.resetBlock_reads (s : State) : (s.resetBlock).reads = s.reads := rfl
@[simp] theorem State.resetBlock_script (s : State) : (s.resetBlock).script = s.script := rfl
@[simp] theorem State.resetBlock_faults (s : State) : (s.resetBlock).faults = s.faults := rfl
@[simp] theorem State.resetBlock_refusalMark (s : State) : (s.resetBlock).refusalMark = s.refusalMark := rfl
@[simp] theorem State.resetBlock_free (s : State) : (s.resetBlock).free = s.free + 4 := rfl

/-! ### present -/

@[simp] theorem State.present_addr (s : State) (a : Access) : (s.present a).addr = s.addr := rfl
@[simp] theorem State.present_len (s : State) (a : Access) : (s.present a).len = s.len := rfl
@[simp] theorem State.present_busy (s : State) (a : Access) : (s.present a).busy = s.busy := rfl
@[simp] theorem State.present_done (s : State) (a : Access) : (s.present a).done = s.done := rfl
@[simp] theorem State.present_res (s : State) (a : Access) : (s.present a).res = s.res := rfl
@[simp] theorem State.present_eng (s : State) (a : Access) : (s.present a).eng = s.eng := rfl
@[simp] theorem State.present_pending (s : State) (a : Access) : (s.present a).pending = none := rfl
@[simp] theorem State.present_queue (s : State) (a : Access) : (s.present a).queue = a :: s.queue := rfl
@[simp] theorem State.present_hostStuck (s : State) (a : Access) : (s.present a).hostStuck = false := rfl
@[simp] theorem State.present_mem (s : State) (a : Access) : (s.present a).mem = s.mem := rfl
@[simp] theorem State.present_hostCache (s : State) (a : Access) : (s.present a).hostCache = s.hostCache := rfl
@[simp] theorem State.present_platform (s : State) (a : Access) : (s.present a).platform = s.platform := rfl
@[simp] theorem State.present_reads (s : State) (a : Access) : (s.present a).reads = s.reads := rfl
@[simp] theorem State.present_script (s : State) (a : Access) : (s.present a).script = .host :: s.script := rfl
@[simp] theorem State.present_faults (s : State) (a : Access) : (s.present a).faults = s.faults := rfl
@[simp] theorem State.present_refusalMark (s : State) (a : Access) : (s.present a).refusalMark = s.refusalMark := rfl
@[simp] theorem State.present_free (s : State) (a : Access) : (s.present a).free = s.free := rfl

/-! ### setScript -/

@[simp] theorem State.setScript_addr (s : State) (r : List Turn) : (s.setScript r).addr = s.addr := rfl
@[simp] theorem State.setScript_len (s : State) (r : List Turn) : (s.setScript r).len = s.len := rfl
@[simp] theorem State.setScript_busy (s : State) (r : List Turn) : (s.setScript r).busy = s.busy := rfl
@[simp] theorem State.setScript_done (s : State) (r : List Turn) : (s.setScript r).done = s.done := rfl
@[simp] theorem State.setScript_res (s : State) (r : List Turn) : (s.setScript r).res = s.res := rfl
@[simp] theorem State.setScript_eng (s : State) (r : List Turn) : (s.setScript r).eng = s.eng := rfl
@[simp] theorem State.setScript_pending (s : State) (r : List Turn) : (s.setScript r).pending = s.pending := rfl
@[simp] theorem State.setScript_queue (s : State) (r : List Turn) : (s.setScript r).queue = s.queue := rfl
@[simp] theorem State.setScript_hostStuck (s : State) (r : List Turn) : (s.setScript r).hostStuck = s.hostStuck := rfl
@[simp] theorem State.setScript_mem (s : State) (r : List Turn) : (s.setScript r).mem = s.mem := rfl
@[simp] theorem State.setScript_hostCache (s : State) (r : List Turn) : (s.setScript r).hostCache = s.hostCache := rfl
@[simp] theorem State.setScript_platform (s : State) (r : List Turn) : (s.setScript r).platform = s.platform := rfl
@[simp] theorem State.setScript_reads (s : State) (r : List Turn) : (s.setScript r).reads = s.reads := rfl
@[simp] theorem State.setScript_script (s : State) (r : List Turn) : (s.setScript r).script = r := rfl
@[simp] theorem State.setScript_faults (s : State) (r : List Turn) : (s.setScript r).faults = s.faults := rfl
@[simp] theorem State.setScript_refusalMark (s : State) (r : List Turn) : (s.setScript r).refusalMark = s.refusalMark := rfl
@[simp] theorem State.setScript_free (s : State) (r : List Turn) : (s.setScript r).free = s.free := rfl

/-! ### setFront -/

@[simp] theorem State.setFront_addr (s : State) (a : Access) (r : List Access) : (s.setFront a r).addr = s.addr := rfl
@[simp] theorem State.setFront_len (s : State) (a : Access) (r : List Access) : (s.setFront a r).len = s.len := rfl
@[simp] theorem State.setFront_busy (s : State) (a : Access) (r : List Access) : (s.setFront a r).busy = s.busy := rfl
@[simp] theorem State.setFront_done (s : State) (a : Access) (r : List Access) : (s.setFront a r).done = s.done := rfl
@[simp] theorem State.setFront_res (s : State) (a : Access) (r : List Access) : (s.setFront a r).res = s.res := rfl
@[simp] theorem State.setFront_eng (s : State) (a : Access) (r : List Access) : (s.setFront a r).eng = s.eng := rfl
@[simp] theorem State.setFront_pending (s : State) (a : Access) (r : List Access) : (s.setFront a r).pending = some a := rfl
@[simp] theorem State.setFront_queue (s : State) (a : Access) (r : List Access) : (s.setFront a r).queue = r := rfl
@[simp] theorem State.setFront_hostStuck (s : State) (a : Access) (r : List Access) : (s.setFront a r).hostStuck = s.hostStuck := rfl
@[simp] theorem State.setFront_mem (s : State) (a : Access) (r : List Access) : (s.setFront a r).mem = s.mem := rfl
@[simp] theorem State.setFront_hostCache (s : State) (a : Access) (r : List Access) : (s.setFront a r).hostCache = s.hostCache := rfl
@[simp] theorem State.setFront_platform (s : State) (a : Access) (r : List Access) : (s.setFront a r).platform = s.platform := rfl
@[simp] theorem State.setFront_reads (s : State) (a : Access) (r : List Access) : (s.setFront a r).reads = s.reads := rfl
@[simp] theorem State.setFront_script (s : State) (a : Access) (r : List Access) : (s.setFront a r).script = s.script := rfl
@[simp] theorem State.setFront_faults (s : State) (a : Access) (r : List Access) : (s.setFront a r).faults = s.faults := rfl
@[simp] theorem State.setFront_refusalMark (s : State) (a : Access) (r : List Access) : (s.setFront a r).refusalMark = s.refusalMark := rfl
@[simp] theorem State.setFront_free (s : State) (a : Access) (r : List Access) : (s.setFront a r).free = s.free := rfl

/-! ### enqueue -/

@[simp] theorem State.enqueue_addr (s : State) (a : Access) : (s.enqueue a).addr = s.addr := rfl
@[simp] theorem State.enqueue_len (s : State) (a : Access) : (s.enqueue a).len = s.len := rfl
@[simp] theorem State.enqueue_busy (s : State) (a : Access) : (s.enqueue a).busy = s.busy := rfl
@[simp] theorem State.enqueue_done (s : State) (a : Access) : (s.enqueue a).done = s.done := rfl
@[simp] theorem State.enqueue_res (s : State) (a : Access) : (s.enqueue a).res = s.res := rfl
@[simp] theorem State.enqueue_eng (s : State) (a : Access) : (s.enqueue a).eng = s.eng := rfl
@[simp] theorem State.enqueue_pending (s : State) (a : Access) : (s.enqueue a).pending = s.pending := rfl
@[simp] theorem State.enqueue_queue (s : State) (a : Access) : (s.enqueue a).queue = s.queue ++ [a] := rfl
@[simp] theorem State.enqueue_hostStuck (s : State) (a : Access) : (s.enqueue a).hostStuck = s.hostStuck := rfl
@[simp] theorem State.enqueue_mem (s : State) (a : Access) : (s.enqueue a).mem = s.mem := rfl
@[simp] theorem State.enqueue_hostCache (s : State) (a : Access) : (s.enqueue a).hostCache = s.hostCache := rfl
@[simp] theorem State.enqueue_platform (s : State) (a : Access) : (s.enqueue a).platform = s.platform := rfl
@[simp] theorem State.enqueue_reads (s : State) (a : Access) : (s.enqueue a).reads = s.reads := rfl
@[simp] theorem State.enqueue_script (s : State) (a : Access) : (s.enqueue a).script = s.script := rfl
@[simp] theorem State.enqueue_faults (s : State) (a : Access) : (s.enqueue a).faults = s.faults := rfl
@[simp] theorem State.enqueue_refusalMark (s : State) (a : Access) : (s.enqueue a).refusalMark = s.refusalMark := rfl
@[simp] theorem State.enqueue_free (s : State) (a : Access) : (s.enqueue a).free = s.free := rfl

/-! ### setHostCache -/

@[simp] theorem State.setHostCache_addr (s : State) (c : List Host.Cell) : (s.setHostCache c).addr = s.addr := rfl
@[simp] theorem State.setHostCache_len (s : State) (c : List Host.Cell) : (s.setHostCache c).len = s.len := rfl
@[simp] theorem State.setHostCache_busy (s : State) (c : List Host.Cell) : (s.setHostCache c).busy = s.busy := rfl
@[simp] theorem State.setHostCache_done (s : State) (c : List Host.Cell) : (s.setHostCache c).done = s.done := rfl
@[simp] theorem State.setHostCache_res (s : State) (c : List Host.Cell) : (s.setHostCache c).res = s.res := rfl
@[simp] theorem State.setHostCache_eng (s : State) (c : List Host.Cell) : (s.setHostCache c).eng = s.eng := rfl
@[simp] theorem State.setHostCache_pending (s : State) (c : List Host.Cell) : (s.setHostCache c).pending = s.pending := rfl
@[simp] theorem State.setHostCache_queue (s : State) (c : List Host.Cell) : (s.setHostCache c).queue = s.queue := rfl
@[simp] theorem State.setHostCache_hostStuck (s : State) (c : List Host.Cell) : (s.setHostCache c).hostStuck = s.hostStuck := rfl
@[simp] theorem State.setHostCache_mem (s : State) (c : List Host.Cell) : (s.setHostCache c).mem = s.mem := rfl
@[simp] theorem State.setHostCache_hostCache (s : State) (c : List Host.Cell) : (s.setHostCache c).hostCache = c := rfl
@[simp] theorem State.setHostCache_platform (s : State) (c : List Host.Cell) : (s.setHostCache c).platform = s.platform := rfl
@[simp] theorem State.setHostCache_reads (s : State) (c : List Host.Cell) : (s.setHostCache c).reads = s.reads := rfl
@[simp] theorem State.setHostCache_script (s : State) (c : List Host.Cell) : (s.setHostCache c).script = s.script := rfl
@[simp] theorem State.setHostCache_faults (s : State) (c : List Host.Cell) : (s.setHostCache c).faults = s.faults := rfl
@[simp] theorem State.setHostCache_refusalMark (s : State) (c : List Host.Cell) : (s.setHostCache c).refusalMark = s.refusalMark := rfl
@[simp] theorem State.setHostCache_free (s : State) (c : List Host.Cell) : (s.setHostCache c).free = s.free := rfl

/-! ### setHostStuck -/

@[simp] theorem State.setHostStuck_addr (s : State) (b : Bool) : (s.setHostStuck b).addr = s.addr := rfl
@[simp] theorem State.setHostStuck_len (s : State) (b : Bool) : (s.setHostStuck b).len = s.len := rfl
@[simp] theorem State.setHostStuck_busy (s : State) (b : Bool) : (s.setHostStuck b).busy = s.busy := rfl
@[simp] theorem State.setHostStuck_done (s : State) (b : Bool) : (s.setHostStuck b).done = s.done := rfl
@[simp] theorem State.setHostStuck_res (s : State) (b : Bool) : (s.setHostStuck b).res = s.res := rfl
@[simp] theorem State.setHostStuck_eng (s : State) (b : Bool) : (s.setHostStuck b).eng = s.eng := rfl
@[simp] theorem State.setHostStuck_pending (s : State) (b : Bool) : (s.setHostStuck b).pending = s.pending := rfl
@[simp] theorem State.setHostStuck_queue (s : State) (b : Bool) : (s.setHostStuck b).queue = s.queue := rfl
@[simp] theorem State.setHostStuck_hostStuck (s : State) (b : Bool) : (s.setHostStuck b).hostStuck = b := rfl
@[simp] theorem State.setHostStuck_mem (s : State) (b : Bool) : (s.setHostStuck b).mem = s.mem := rfl
@[simp] theorem State.setHostStuck_hostCache (s : State) (b : Bool) : (s.setHostStuck b).hostCache = s.hostCache := rfl
@[simp] theorem State.setHostStuck_platform (s : State) (b : Bool) : (s.setHostStuck b).platform = s.platform := rfl
@[simp] theorem State.setHostStuck_reads (s : State) (b : Bool) : (s.setHostStuck b).reads = s.reads := rfl
@[simp] theorem State.setHostStuck_script (s : State) (b : Bool) : (s.setHostStuck b).script = s.script := rfl
@[simp] theorem State.setHostStuck_faults (s : State) (b : Bool) : (s.setHostStuck b).faults = s.faults := rfl
@[simp] theorem State.setHostStuck_refusalMark (s : State) (b : Bool) : (s.setHostStuck b).refusalMark = s.refusalMark := rfl
@[simp] theorem State.setHostStuck_free (s : State) (b : Bool) : (s.setHostStuck b).free = s.free := rfl

/-! ### The state after reset -/

@[simp] theorem State.resetOn_addr (p : Platform) : (State.resetOn p).addr = 0 := rfl
@[simp] theorem State.resetOn_len (p : Platform) : (State.resetOn p).len = 0 := rfl
@[simp] theorem State.resetOn_busy (p : Platform) : (State.resetOn p).busy = false := rfl
@[simp] theorem State.resetOn_done (p : Platform) : (State.resetOn p).done = false := rfl
@[simp] theorem State.resetOn_res (p : Platform) : (State.resetOn p).res = 0 := rfl
@[simp] theorem State.resetOn_eng (p : Platform) : (State.resetOn p).eng = { ptr := 0, rem := 0, acc := 0, swap := false } := rfl
@[simp] theorem State.resetOn_pending (p : Platform) : (State.resetOn p).pending = none := rfl
@[simp] theorem State.resetOn_queue (p : Platform) : (State.resetOn p).queue = [] := rfl
@[simp] theorem State.resetOn_hostStuck (p : Platform) : (State.resetOn p).hostStuck = false := rfl
@[simp] theorem State.resetOn_mem (p : Platform) : (State.resetOn p).mem = [] := rfl
@[simp] theorem State.resetOn_hostCache (p : Platform) : (State.resetOn p).hostCache = [] := rfl
@[simp] theorem State.resetOn_platform (p : Platform) : (State.resetOn p).platform = p := rfl
@[simp] theorem State.resetOn_reads (p : Platform) : (State.resetOn p).reads = [] := rfl
@[simp] theorem State.resetOn_script (p : Platform) : (State.resetOn p).script = [] := rfl
@[simp] theorem State.resetOn_faults (p : Platform) : (State.resetOn p).faults = [] := rfl
@[simp] theorem State.resetOn_refusalMark (p : Platform) : (State.resetOn p).refusalMark = none := rfl
@[simp] theorem State.resetOn_free (p : Platform) : (State.resetOn p).free = 0 := rfl

/-! ### Engine fields -/

@[simp] theorem Engine.advance_ptr (e : Engine) (v n : Word) : (e.advance v n).ptr = e.ptr + n := rfl
@[simp] theorem Engine.advance_rem (e : Engine) (v n : Word) : (e.advance v n).rem = e.rem - n := rfl
@[simp] theorem Engine.advance_acc (e : Engine) (v n : Word) : (e.advance v n).acc = addEac e.acc v := rfl
@[simp] theorem Engine.advance_swap (e : Engine) (v n : Word) : (e.advance v n).swap = e.swap := rfl

/-! ### A state is running exactly when it is not stopped -/

theorem State.stopped_eq_none_iff (s : State) : s.stopped = none ↔ s.running := by
  unfold State.stopped State.running
  cases hf : s.faults with
  | cons f rest => simp
  | nil => cases hr : s.refusalMark <;> simp

end Sys2Proof.Machine
end

