-- ==== Sys2Proof/Laws/Memory.lean ====
section
/-! SUPPORT. The sparse memory: a read after a write, every other address, and the canonical form, which every memory
operation keeps. -/

namespace Sys2Proof.Machine

/-! ### Looking up a listed byte -/

theorem cellsGet_put_same (cells : List Host.Cell) (a : Nat) (b : Byte) : cellsGet (cellsPut cells a b) a = some b := by
  induction cells with
  | nil => simp [cellsPut, cellsGet]
  | cons c rest ih =>
    obtain ⟨k, v⟩ := c
    simp only [cellsPut]
    split
    · simp [cellsGet]
    · split
      · simp [cellsGet]
      · rename_i h
        simp [cellsGet, h, ih]

theorem cellsGet_put_other (cells : List Host.Cell) {a c : Nat} (b : Byte) (h : c ≠ a) :
    cellsGet (cellsPut cells a b) c = cellsGet cells c := by
  induction cells with
  | nil => simp [cellsPut, cellsGet, h]
  | cons x rest ih =>
    obtain ⟨k, v⟩ := x
    simp only [cellsPut]
    split
    · simp [cellsGet, h]
    · split
      · rename_i hk
        subst hk
        simp [cellsGet, h]
      · simp [cellsGet, ih]

theorem cellsGet_erase_same (cells : List Host.Cell) (a : Nat) : cellsGet (cellsErase cells a) a = none := by
  unfold cellsErase
  induction cells with
  | nil => rfl
  | cons x rest ih =>
    obtain ⟨k, v⟩ := x
    by_cases hk : k = a
    · simpa [hk] using ih
    · have hk' : a ≠ k := fun h => hk h.symm
      simpa [hk, cellsGet, hk'] using ih

theorem cellsGet_erase_other (cells : List Host.Cell) {a c : Nat} (h : c ≠ a) :
    cellsGet (cellsErase cells a) c = cellsGet cells c := by
  unfold cellsErase
  induction cells with
  | nil => rfl
  | cons x rest ih =>
    obtain ⟨k, v⟩ := x
    by_cases hk : k = a
    · subst hk
      simpa [cellsGet, h] using ih
    · by_cases hc : c = k
      · simp [hk, cellsGet, hc]
      · simpa [hk, cellsGet, hc] using ih

theorem cellsGet_mem (cells : List Host.Cell) {a : Nat} {b : Byte} (h : cellsGet cells a = some b) :
    (a, b) ∈ cells := by
  induction cells with
  | nil => simp [cellsGet] at h
  | cons x rest ih =>
    obtain ⟨k, v⟩ := x
    by_cases hk : a = k
    · simp [cellsGet, hk] at h
      simp [hk, h]
    · simp [cellsGet, hk] at h
      exact List.mem_cons_of_mem _ (ih h)

/-! ### Reading memory -/

theorem Memory.read_write_same (m : Memory) (a : Nat) (b : Byte) : (m.write a b).read a = b := by
  unfold Memory.write Memory.read
  split
  · rename_i h
    simp [cellsGet_erase_same, h]
  · simp [cellsGet_put_same]

theorem Memory.read_write_other (m : Memory) {a c : Nat} (b : Byte) (h : c ≠ a) :
    (m.write a b).read c = m.read c := by
  unfold Memory.write Memory.read
  split
  · rw [cellsGet_erase_other _ h]
  · rw [cellsGet_put_other _ b h]

@[simp] theorem Memory.readBytes_length (m : Memory) (a n : Nat) : (m.readBytes a n).length = n := by
  induction n generalizing a with
  | zero => rfl
  | succ n ih => simp [Memory.readBytes, ih]

theorem Memory.readBytes_append (m : Memory) (a n k : Nat) :
    m.readBytes a (n + k) = m.readBytes a n ++ m.readBytes (a + n) k := by
  induction n generalizing a with
  | zero => simp [Memory.readBytes]
  | succ n ih =>
    have h1 : n + 1 + k = (n + k) + 1 := by omega
    have h2 : a + (n + 1) = a + 1 + n := by omega
    rw [h1, Memory.readBytes, ih, Memory.readBytes, h2]
    rfl

/-! ### The canonical form -/

theorem cellsPut_keys (cells : List Host.Cell) (a : Nat) (b : Byte) {c : Host.Cell} (h : c ∈ cellsPut cells a b) :
    c = (a, b) ∨ c ∈ cells := by
  induction cells with
  | nil => simpa [cellsPut] using h
  | cons x rest ih =>
    obtain ⟨k, v⟩ := x
    simp only [cellsPut] at h
    split at h
    · simpa using h
    · split at h
      · rcases List.mem_cons.1 h with h | h
        · exact .inl h
        · exact .inr (List.mem_cons_of_mem _ h)
      · rcases List.mem_cons.1 h with h | h
        · exact .inr (by simp [h])
        · exact (ih h).imp id (List.mem_cons_of_mem _)

theorem cellsPut_pairwise (cells : List Host.Cell) (a : Nat) (b : Byte)
    (h : cells.Pairwise (fun x y => x.1 < y.1)) : (cellsPut cells a b).Pairwise (fun x y => x.1 < y.1) := by
  induction cells with
  | nil => simp [cellsPut]
  | cons x rest ih =>
    obtain ⟨k, v⟩ := x
    obtain ⟨hk, hrest⟩ := List.pairwise_cons.1 h
    simp only [cellsPut]
    split
    · rename_i hlt
      refine List.pairwise_cons.2 ⟨?_, h⟩
      intro c hc
      rcases List.mem_cons.1 hc with hc | hc
      · simpa [hc] using hlt
      · exact lt_trans hlt (hk c hc)
    · split
      · rename_i _ heq
        refine List.pairwise_cons.2 ⟨?_, hrest⟩
        intro c hc
        simpa [heq] using hk c hc
      · rename_i hlt hne
        refine List.pairwise_cons.2 ⟨?_, ih hrest⟩
        intro c hc
        rcases cellsPut_keys rest a b hc with hc | hc
        · subst hc
          show k < a
          omega
        · exact hk c hc

theorem cellsPut_sorted {cells : List Host.Cell} (h : cellsSorted cells) {a : Nat} (b : Byte) (ha : a < 2 ^ 32) :
    cellsSorted (cellsPut cells a b) := by
  refine ⟨cellsPut_pairwise cells a b h.1, fun c hc => ?_⟩
  rcases cellsPut_keys cells a b hc with hc | hc
  · simpa [hc] using ha
  · exact h.2 c hc

theorem cellsErase_sorted {cells : List Host.Cell} (h : cellsSorted cells) (a : Nat) :
    cellsSorted (cellsErase cells a) :=
  ⟨h.1.filter _, fun c hc => h.2 c (List.mem_of_mem_filter hc)⟩

/-- Writing a byte keeps the canonical form. -/
theorem Memory.write_wf {m : Memory} (h : Memory.wf m) {a : Nat} (b : Byte) (ha : a < 2 ^ 32) :
    Memory.wf (m.write a b) := by
  unfold Memory.write
  split
  · exact ⟨cellsErase_sorted h.1 a, fun c hc => h.2 c (List.mem_of_mem_filter hc)⟩
  · rename_i hb
    refine ⟨cellsPut_sorted h.1 b ha, fun c hc => ?_⟩
    rcases cellsPut_keys m a b hc with hc | hc
    · simpa [hc, Memory.unlisted] using hb
    · exact h.2 c hc

/-- The memory of the reset state has the canonical form. -/
theorem Memory.reset_wf (p : Platform) : Memory.wf (State.resetOn p).mem := by
  simp [Memory.wf, cellsSorted]

end Sys2Proof.Machine
end

