-- ==== Sys2Proof/Laws/Engine.lean ====
section
/-! SUPPORT. The engine's conditions read as conditions on naturals, and the bytes of a word read. -/

namespace Sys2Proof.Machine

theorem allReadable_iff (p : Platform) (a n : Nat) :
    allReadable p a n = true ↔ ∀ k < n, readable p (a + k) = true := by
  induction n generalizing a with
  | zero => simp [allReadable]
  | succ n ih =>
    rw [allReadable, Bool.and_eq_true, ih]
    constructor
    · rintro ⟨h0, h⟩ k hk
      cases k with
      | zero => exact h0
      | succ k =>
        rw [show a + (k + 1) = a + 1 + k by omega]
        exact h k (by omega)
    · intro h
      refine ⟨h 0 (by omega), fun k hk => ?_⟩
      rw [show a + 1 + k = a + (k + 1) by omega]
      exact h (k + 1) (by omega)

theorem isAligned4_iff (w : Word) : isAligned4 w = true ↔ w.toNat % 4 = 0 := by
  simp [isAligned4]

theorem overlapsRegion_iff (r : Region) (a n : Nat) :
    overlapsRegion r a n = true ↔ ∃ k < n, inRegion r (a + k) = true := by
  simp only [overlapsRegion, inRegion, decide_eq_true_eq, Bool.and_eq_true]
  constructor
  · intro h
    refine ⟨max r.base a - a, by omega, by omega, by omega⟩
  · rintro ⟨k, hk, h1, h2⟩
    omega

/-- A buffer is free of side effects when every byte of it is (R213). -/
theorem sideEffectBufferAt_iff (p : Platform) (a n : Nat) :
    sideEffectBufferAt p a n = true ↔ ∃ k < n, sideEffectAt p (a + k) = true := by
  simp only [sideEffectBufferAt, sideEffectAt, List.any_eq_true, Bool.and_eq_true, overlapsRegion_iff]
  constructor
  · rintro ⟨r, hr, hk, k, h1, h2⟩
    exact ⟨k, h1, r, hr, hk, h2⟩
  · rintro ⟨k, h1, r, hr, hk, h2⟩
    exact ⟨r, hr, hk, k, h1, h2⟩

theorem bufferWraps_iff (a n : Word) : bufferWraps a n = true ↔ 2 ^ 32 < a.toNat + n.toNat := by
  simp [bufferWraps]

/-- The bytes a WORD step reads, as the list R188 counts. -/
theorem Memory.readBytes_four (m : Memory) (a : Nat) :
    m.readBytes a 4 = [m.read a, m.read (a + 1), m.read (a + 2), m.read (a + 3)] := rfl

theorem Memory.readBytes_one (m : Memory) (a : Nat) : m.readBytes a 1 = [m.read a] := rfl

/-- Which step is enabled, by what is left to read (R181). -/
theorem engineKind_cases (e : Engine) :
    (engineKind e = .byte ∧ 0 < e.rem.toNat ∧ (e.ptr.toNat % 4 ≠ 0 ∨ e.rem.toNat < 4)) ∨
    (engineKind e = .word ∧ e.ptr.toNat % 4 = 0 ∧ 4 ≤ e.rem.toNat) ∨
    (engineKind e = .fold ∧ e.rem.toNat = 0 ∧ 0xFFFF < e.acc.toNat) ∨
    (engineKind e = .finish ∧ e.rem.toNat = 0 ∧ e.acc.toNat ≤ 0xFFFF) := by
  unfold engineKind Config.unit isAligned4
  by_cases h1 : 0 < e.rem.toNat ∧ (decide (e.ptr.toNat % 4 = 0) = false ∨ e.rem.toNat < 4)
  · exact .inl ⟨if_pos h1, h1.1, by simpa using h1.2⟩
  · rw [if_neg h1]
    simp only [decide_eq_false_iff_not, not_and_or, not_or, not_not] at h1
    by_cases h2 : 4 ≤ e.rem.toNat
    · exact .inr (.inl ⟨if_pos h2, by omega, h2⟩)
    · rw [if_neg h2]
      by_cases h3 : 0xFFFF < e.acc.toNat
      · exact .inr (.inr (.inl ⟨if_pos h3, by omega, h3⟩))
      · exact .inr (.inr (.inr ⟨if_neg h3, by omega, by omega⟩))

end Sys2Proof.Machine
end

