-- ==== Sys2Proof/Laws/PerInstr.lean ====
section
/-! SUPPORT. One lemma per instruction: a well-formed instruction is read back from its encoding. -/

namespace Sys2Proof.Laws.RoundTrip

/-- Decoding the encoding of a well-formed instruction gives it back. -/
def Statement (i : Instr) : Prop := i.wellFormed = true → decode (encode i) = i

theorem rdAddr : Statement .rdAddr := fun _ => decode_encodeIndex _ _

theorem wrAddr (data : Word) : Statement (.wrAddr data) := fun _ => decode_encodeIndex _ _

theorem rdLen : Statement .rdLen := fun _ => decode_encodeIndex _ _

theorem wrLen (data : Word) : Statement (.wrLen data) := fun _ => decode_encodeIndex _ _

theorem rdCtrl : Statement .rdCtrl := fun _ => decode_encodeIndex _ _

theorem wrCtrl (data : Word) : Statement (.wrCtrl data) := fun _ => decode_encodeIndex _ _

theorem rdStatus : Statement .rdStatus := fun _ => decode_encodeIndex _ _

theorem wrStatus (data : Word) : Statement (.wrStatus data) := fun _ => decode_encodeIndex _ _

theorem rdResult : Statement .rdResult := fun _ => decode_encodeIndex _ _

theorem wrResult (data : Word) : Statement (.wrResult data) := fun _ => decode_encodeIndex _ _

theorem rsvdIndex5 (dir : Dir) : Statement (.rsvdIndex5 dir) := fun _ => decode_encodeIndex _ _

theorem rsvdIndex6to7 (index : BitVec 10) (dir : Dir) : Statement (.rsvdIndex6to7 index dir) := by
  intro h
  obtain ⟨h1, h2⟩ := indexIn_iff.1 h
  refine (decode_encodeIndex index dir).trans ?_
  rw [decodeIndex_reserved (by omega)]
  rw [if_pos (by omega)]

theorem rsvdIndex8to15 (index : BitVec 10) (dir : Dir) : Statement (.rsvdIndex8to15 index dir) := by
  intro h
  obtain ⟨h1, h2⟩ := indexIn_iff.1 h
  refine (decode_encodeIndex index dir).trans ?_
  rw [decodeIndex_reserved (by omega)]
  rw [if_neg (by omega)]
  rw [if_pos (by omega)]

theorem rsvdIndex16to31 (index : BitVec 10) (dir : Dir) : Statement (.rsvdIndex16to31 index dir) := by
  intro h
  obtain ⟨h1, h2⟩ := indexIn_iff.1 h
  refine (decode_encodeIndex index dir).trans ?_
  rw [decodeIndex_reserved (by omega)]
  rw [if_neg (by omega)]
  rw [if_neg (by omega)]
  rw [if_pos (by omega)]

theorem rsvdIndex32to63 (index : BitVec 10) (dir : Dir) : Statement (.rsvdIndex32to63 index dir) := by
  intro h
  obtain ⟨h1, h2⟩ := indexIn_iff.1 h
  refine (decode_encodeIndex index dir).trans ?_
  rw [decodeIndex_reserved (by omega)]
  rw [if_neg (by omega)]
  rw [if_neg (by omega)]
  rw [if_neg (by omega)]
  rw [if_pos (by omega)]

theorem rsvdIndex64to127 (index : BitVec 10) (dir : Dir) : Statement (.rsvdIndex64to127 index dir) := by
  intro h
  obtain ⟨h1, h2⟩ := indexIn_iff.1 h
  refine (decode_encodeIndex index dir).trans ?_
  rw [decodeIndex_reserved (by omega)]
  rw [if_neg (by omega)]
  rw [if_neg (by omega)]
  rw [if_neg (by omega)]
  rw [if_neg (by omega)]
  rw [if_pos (by omega)]

theorem rsvdIndex128to255 (index : BitVec 10) (dir : Dir) : Statement (.rsvdIndex128to255 index dir) := by
  intro h
  obtain ⟨h1, h2⟩ := indexIn_iff.1 h
  refine (decode_encodeIndex index dir).trans ?_
  rw [decodeIndex_reserved (by omega)]
  rw [if_neg (by omega)]
  rw [if_neg (by omega)]
  rw [if_neg (by omega)]
  rw [if_neg (by omega)]
  rw [if_neg (by omega)]
  rw [if_pos (by omega)]

theorem rsvdIndex256to511 (index : BitVec 10) (dir : Dir) : Statement (.rsvdIndex256to511 index dir) := by
  intro h
  obtain ⟨h1, h2⟩ := indexIn_iff.1 h
  refine (decode_encodeIndex index dir).trans ?_
  rw [decodeIndex_reserved (by omega)]
  rw [if_neg (by omega)]
  rw [if_neg (by omega)]
  rw [if_neg (by omega)]
  rw [if_neg (by omega)]
  rw [if_neg (by omega)]
  rw [if_neg (by omega)]
  rw [if_pos (by omega)]

theorem rsvdIndex512to1023 (index : BitVec 10) (dir : Dir) : Statement (.rsvdIndex512to1023 index dir) := by
  intro h
  obtain ⟨h1, h2⟩ := indexIn_iff.1 h
  refine (decode_encodeIndex index dir).trans ?_
  rw [decodeIndex_reserved (by omega)]
  rw [if_neg (by omega)]
  rw [if_neg (by omega)]
  rw [if_neg (by omega)]
  rw [if_neg (by omega)]
  rw [if_neg (by omega)]
  rw [if_neg (by omega)]
  rw [if_neg (by omega)]

theorem refusedSize0 (offset : BitVec 12) (dir : Dir) : Statement (.refusedSize0 offset dir) :=
  fun _ => decode_encodeAt 0 offset dir

theorem refusedSize1 (offset : BitVec 12) (dir : Dir) : Statement (.refusedSize1 offset dir) :=
  fun _ => decode_encodeAt 1 offset dir

theorem refusedSize3 (offset : BitVec 12) (dir : Dir) : Statement (.refusedSize3 offset dir) :=
  fun _ => decode_encodeAt 3 offset dir

theorem refusedOffsetOdd (offset : BitVec 12) (dir : Dir) : Statement (.refusedOffsetOdd offset dir) := by
  intro h
  refine (decode_encodeAt 2 offset dir).trans ?_
  exact if_pos h

theorem refusedOffsetTwo (offset : BitVec 12) (dir : Dir) : Statement (.refusedOffsetTwo offset dir) := by
  intro h
  simp only [Instr.wellFormed, Bool.and_eq_true, Bool.not_eq_true'] at h
  refine (decode_encodeAt 2 offset dir).trans ?_
  show (if offset.getLsbD 0 = true then _ else if offset.getLsbD 1 = true then _ else _) = _
  rw [h.1, h.2]
  rfl

theorem nop : Statement .nop := fun _ => decode_encodeCmd 0

theorem start : Statement .start := fun _ => decode_encodeCmd 1

theorem cmdRsvd2to3 (op : BitVec 4) : Statement (.cmdRsvd2to3 op) := by
  intro h
  obtain ⟨h1, h2⟩ := opIn_iff.1 h
  refine (decode_encodeCmd op).trans ?_
  unfold decodeOp
  split
  · omega
  · omega
  · rw [if_pos (by omega)]

theorem cmdRsvd4to7 (op : BitVec 4) : Statement (.cmdRsvd4to7 op) := by
  intro h
  obtain ⟨h1, h2⟩ := opIn_iff.1 h
  refine (decode_encodeCmd op).trans ?_
  unfold decodeOp
  split
  · omega
  · omega
  · rw [if_neg (by omega), if_pos (by omega)]

theorem cmdRsvd8to15 (op : BitVec 4) : Statement (.cmdRsvd8to15 op) := by
  intro h
  obtain ⟨h1, h2⟩ := opIn_iff.1 h
  refine (decode_encodeCmd op).trans ?_
  unfold decodeOp
  split
  · omega
  · omega
  · rw [if_neg (by omega), if_neg (by omega)]

end Sys2Proof.Laws.RoundTrip
end

