-- ==== Sys2Proof/Laws/Step.lean ====
section
/-! SUPPORT. What a transaction, an engine step, a turn and a step can do, said once. -/

namespace Sys2Proof.Machine

/-! ### One transaction -/

/-- Everything a held or accepted transaction can do when it answers a next state. -/
theorem heldWhileBusy_next {s t : State} {o : Host.Outcome State Fault Refusal} (h : heldWhileBusy s o = .next t) :
    (s.busy = true ∧ t = s) ∨ (s.busy = false ∧ o = .next t) := by
  unfold heldWhileBusy at h
  split at h
  · rename_i hb
    exact .inl ⟨hb, by simpa using h.symm⟩
  · rename_i hb
    exact .inr ⟨by simpa using hb, h⟩

theorem heldWhileBusy_of_busy {s : State} (h : s.busy = true) (o : Host.Outcome State Fault Refusal) :
    heldWhileBusy s o = .next s := by
  simp [heldWhileBusy, h]

theorem heldWhileBusy_of_idle {s : State} (h : s.busy = false) (o : Host.Outcome State Fault Refusal) :
    heldWhileBusy s o = o := by
  simp [heldWhileBusy, h]

/-- START over a buffer that fits and has no side effects is accepted, and only then. -/
theorem startCommand_next {s t : State} (h : startCommand s = .next t) :
    bufferWraps s.addr s.len = false ∧ sideEffectBufferAt s.platform s.addr.toNat s.len.toNat = false ∧
      t = s.startAccepted.complete := by
  unfold startCommand raiseFault refuse at h
  split at h
  · cases h
  · split at h
    · cases h
    · rename_i h1 h2
      exact ⟨by simpa using h1, by simpa using h2, by simpa using h.symm⟩

theorem startCommand_of_accepted {s : State} (h1 : bufferWraps s.addr s.len = false)
    (h2 : sideEffectBufferAt s.platform s.addr.toNat s.len.toNat = false) :
    startCommand s = .next s.startAccepted.complete := by
  simp [startCommand, h1, h2]

/-- An accepted or held command: no effect while BUSY = 1, and then nothing or a started operation. -/
theorem heldCommand_next {i : Instr} {s t : State} {o : Host.Outcome State Fault Refusal} (hi : holdable i = true)
    (ho : o = .next s.complete ∨ (isStart i = true ∧ o = startCommand s)) (h : heldWhileBusy s o = .next t) :
    (holdable i = true ∧ s.busy = true ∧ t = s) ∨ t = s.complete ∨
      (isStart i = true ∧ s.busy = false ∧ bufferWraps s.addr s.len = false ∧
        sideEffectBufferAt s.platform s.addr.toNat s.len.toNat = false ∧ t = s.startAccepted.complete) := by
  rcases heldWhileBusy_next h with ⟨hb, ht⟩ | ⟨hb, ht⟩
  · exact .inl ⟨hi, hb, ht⟩
  · rcases ho with hc | ⟨hs, hc⟩
    · exact .inr (.inl (Host.Outcome.next.inj (hc ▸ ht)).symm)
    · obtain ⟨h1, h2, h3⟩ := startCommand_next (hc ▸ ht)
      exact .inr (.inr ⟨hs, hb, h1, h2, h3⟩)

/-- Everything a transaction can do when it answers a next state: it is held with no effect, or it is accepted and
writes ADDR, writes LEN, returns a word, changes nothing, or starts an operation. -/
theorem exec_next {i : Instr} {s t : State} (h : exec i s = .next t) :
    (holdable i = true ∧ s.busy = true ∧ t = s) ∨ (∃ v, i = .wrAddr v ∧ t = (s.setAddr v).complete) ∨
    (∃ v, i = .wrLen v ∧ t = (s.setLen v).complete) ∨ (∃ v, t = s.reply v) ∨ t = s.complete ∨
    (isStart i = true ∧ s.busy = false ∧ bufferWraps s.addr s.len = false ∧
      sideEffectBufferAt s.platform s.addr.toNat s.len.toNat = false ∧ t = s.startAccepted.complete) := by
  cases i with
  | rdAddr | rdLen | rdCtrl | rdStatus =>
    exact .inr (.inr (.inr (.inl ⟨_, (Host.Outcome.next.inj h).symm⟩)))
  | wrAddr v => exact .inr (.inl ⟨v, rfl, (Host.Outcome.next.inj h).symm⟩)
  | wrLen v => exact .inr (.inr (.inl ⟨v, rfl, (Host.Outcome.next.inj h).symm⟩))
  | wrStatus | wrResult => exact .inr (.inr (.inr (.inr (.inl (Host.Outcome.next.inj h).symm))))
  | rdResult =>
    rcases heldWhileBusy_next h with ⟨hb, ht⟩ | ⟨_, ht⟩
    · exact .inl ⟨rfl, hb, ht⟩
    · exact .inr (.inr (.inr (.inl ⟨_, (Host.Outcome.next.inj ht).symm⟩)))
  | wrCtrl v =>
    refine (heldCommand_next rfl ?_ h).imp id fun h => .inr (.inr (.inr h))
    unfold runCommand idleCommand
    split
    · rename_i hop
      exact .inr ⟨by simpa [isStart] using BitVec.eq_of_toNat_eq hop, rfl⟩
    · exact .inl rfl
  | start => exact (heldCommand_next rfl (.inr ⟨rfl, rfl⟩) h).imp id fun h => .inr (.inr (.inr h))
  | nop | cmdRsvd2to3 | cmdRsvd4to7 | cmdRsvd8to15 =>
    exact (heldCommand_next rfl (.inl rfl) h).imp id fun h => .inr (.inr (.inr h))
  | rsvdIndex5 dir | rsvdIndex6to7 _ dir | rsvdIndex8to15 _ dir | rsvdIndex16to31 _ dir | rsvdIndex32to63 _ dir
  | rsvdIndex64to127 _ dir | rsvdIndex128to255 _ dir | rsvdIndex256to511 _ dir | rsvdIndex512to1023 _ dir =>
    cases dir with
    | read => exact .inr (.inr (.inr (.inl ⟨_, (Host.Outcome.next.inj h).symm⟩)))
    | write v => exact .inr (.inr (.inr (.inr (.inl (Host.Outcome.next.inj h).symm))))
  | refusedSize0 | refusedSize1 | refusedSize3 | refusedOffsetOdd | refusedOffsetTwo => cases h

theorem heldWhileBusy_fault {s : State} {o : Host.Outcome State Fault Refusal} {f : Fault}
    (h : heldWhileBusy s o = .fault f) : s.busy = false ∧ o = .fault f := by
  cases hb : s.busy with
  | true => rw [heldWhileBusy_of_busy hb] at h; cases h
  | false => rw [heldWhileBusy_of_idle hb] at h; exact ⟨rfl, h⟩

theorem startCommand_fault {s : State} {f : Fault} (h : startCommand s = .fault f) :
    bufferWraps s.addr s.len = true ∧ f = .bufferWrap s.addr s.len := by
  unfold startCommand raiseFault refuse at h
  split at h
  · rename_i hw
    exact ⟨hw, (Host.Outcome.fault.inj h).symm⟩
  · split at h <;> cases h

/-- A transaction faults only with MF2, and only an idle START does (R211). -/
theorem exec_fault {i : Instr} {s : State} {f : Fault} (h : exec i s = .fault f) :
    isStart i = true ∧ s.busy = false ∧ bufferWraps s.addr s.len = true ∧ f = .bufferWrap s.addr s.len := by
  cases i with
  | start =>
    obtain ⟨hb, hs⟩ := heldWhileBusy_fault h
    exact ⟨rfl, hb, startCommand_fault hs⟩
  | wrCtrl v =>
    obtain ⟨hb, hs⟩ := heldWhileBusy_fault h
    unfold runCommand idleCommand at hs
    split at hs
    · rename_i hop
      exact ⟨by simpa [isStart] using BitVec.eq_of_toNat_eq hop, hb, startCommand_fault hs⟩
    · cases hs
  | nop | cmdRsvd2to3 | cmdRsvd4to7 | cmdRsvd8to15 | rdResult =>
    obtain ⟨_, hs⟩ := heldWhileBusy_fault h
    cases hs
  | rdAddr | rdLen | rdCtrl | rdStatus | wrAddr | wrLen | wrStatus | wrResult | refusedSize0 | refusedSize1
  | refusedSize3 | refusedOffsetOdd | refusedOffsetTwo => cases h
  | rsvdIndex5 dir | rsvdIndex6to7 _ dir | rsvdIndex8to15 _ dir | rsvdIndex16to31 _ dir | rsvdIndex32to63 _ dir
  | rsvdIndex64to127 _ dir | rsvdIndex128to255 _ dir | rsvdIndex256to511 _ dir | rsvdIndex512to1023 _ dir =>
    cases dir <;> cases h

/-! ### One engine step -/

/-- An engine step faults only with MF1, at PTR, when a byte it would read is not readable (R182, R183). -/
theorem engineStep_fault {s : State} {f : Fault} (h : engineStep s = .fault f) :
    s.busy = true ∧ allReadable s.platform s.eng.ptr.toNat (engineReadSize s) = false ∧
      f = .unreadable s.eng.ptr := by
  unfold engineStep at h
  split at h
  · rename_i hb
    split at h
    · rename_i hk
      unfold byteStep raiseFault at h
      split at h
      · cases h
      · rename_i hr
        exact ⟨hb, by simpa [engineReadSize, hb, hk] using hr, (Host.Outcome.fault.inj h).symm⟩
    · rename_i hk
      unfold wordStep raiseFault at h
      split at h
      · cases h
      · rename_i hr
        exact ⟨hb, by simpa [engineReadSize, hb, hk] using hr, (Host.Outcome.fault.inj h).symm⟩
    · cases h
    · cases h
  · cases h

/-- Everything an engine step can do when it answers a next state. -/
theorem engineStep_next {s t : State} (h : engineStep s = .next t) :
    (s.busy = false ∧ t = s) ∨
    (s.busy = true ∧ engineKind s.eng = .byte ∧ allReadable s.platform s.eng.ptr.toNat 1 = true ∧
      t = s.setEng (s.eng.advance (byteAddend s.eng.ptr (s.mem.read s.eng.ptr.toNat)) 1)) ∨
    (s.busy = true ∧ engineKind s.eng = .word ∧ allReadable s.platform s.eng.ptr.toNat 4 = true ∧
      t = s.setEng (s.eng.advance (s.mem.readWord s.eng.ptr.toNat) 4)) ∨
    (s.busy = true ∧ engineKind s.eng = .fold ∧ t = s.setEng { s.eng with acc := foldWord s.eng.acc }) ∨
    (s.busy = true ∧ engineKind s.eng = .finish ∧ t = (s.setRes s.eng.result).flagsFinished) := by
  unfold engineStep at h
  split at h
  · rename_i hb
    split at h
    · rename_i hk
      unfold byteStep raiseFault at h
      split at h
      · rename_i hr
        exact .inr (.inl ⟨hb, hk, hr, (Host.Outcome.next.inj h).symm⟩)
      · cases h
    · rename_i hk
      unfold wordStep raiseFault at h
      split at h
      · rename_i hr
        exact .inr (.inr (.inl ⟨hb, hk, hr, (Host.Outcome.next.inj h).symm⟩))
      · cases h
    · rename_i hk
      exact .inr (.inr (.inr (.inl ⟨hb, hk, (Host.Outcome.next.inj h).symm⟩)))
    · rename_i hk
      exact .inr (.inr (.inr (.inr ⟨hb, hk, (Host.Outcome.next.inj h).symm⟩)))
  · rename_i hb
    exact .inl ⟨by simpa using hb, (Host.Outcome.next.inj h).symm⟩

/-! ### Taking a transaction -/

/-- Everything `take` can do: the transaction already at the register interface, or the head of the queue moved there. -/
theorem State.take_cases (s : State) :
    (∃ a, s.pending = some a ∧ s.take = some (a, s)) ∨
    (∃ a rest, s.pending = none ∧ s.queue = a :: rest ∧
      s.take = some (a, s.setFront a rest)) ∨
    (s.pending = none ∧ s.queue = [] ∧ s.take = none) := by
  unfold State.take
  cases hp : s.pending with
  | some a => exact .inl ⟨a, rfl, rfl⟩
  | none =>
    cases hq : s.queue with
    | nil => exact .inr (.inr ⟨rfl, rfl, rfl⟩)
    | cons a rest => exact .inr (.inl ⟨a, rest, rfl, rfl, rfl⟩)

/-! ### One step -/

theorem State.nextTurn_cons {s : State} {t : Turn} {rest : List Turn} (h : s.script = t :: rest) :
    s.nextTurn = (t, s.setScript rest) := by
  simp [State.nextTurn, h]

theorem State.nextTurn_nil {s : State} (h : s.script = []) :
    s.nextTurn = (if s.busy then .engine else .host, s) := by
  simp [State.nextTurn, h]

/-- Only the script is used up by choosing a turn. -/
theorem State.nextTurn_snd (s : State) : s.nextTurn.2 = s.setScript s.script.tail := by
  unfold State.nextTurn
  cases h : s.script with
  | nil => cases s; cases h; rfl
  | cons t rest => rfl

/-- A running state takes its turn. -/
theorem step_of_running {s : State} (h : s.running) :
    step s = (turnMove s.nextTurn.1 s.nextTurn.2).outcome := by
  simp only [step, State.move, (State.stopped_eq_none_iff s).2 h]

/-- A stopped state has no next state (R211, R213). -/
theorem step_next_running {s t : State} (h : step s = .next t) : s.running := by
  by_contra hr
  have hs : s.stopped ≠ none := fun hn => hr ((State.stopped_eq_none_iff s).1 hn)
  unfold step State.move at h
  unfold State.stopped at h hs
  cases hf : s.faults with
  | cons f rest => simp [hf, Move.outcome] at h
  | nil =>
    cases hm : s.refusalMark with
    | some r => simp [hf, hm, Move.outcome] at h
    | none => simp [hf, hm] at hs

/-- Everything a step can do when it answers a next state, by whose turn it is. `u` is the state with the turn used
up. -/
theorem step_next {s t : State} (h : step s = .next t) :
    s.running ∧ ∃ u, u = s.setScript s.script.tail ∧
    ((s.nextTurn.1 = .host ∧ ((t = u ∧ (u.hostStuck = true ∨ u.take = none)) ∨
        ∃ a v, u.hostStuck = false ∧ u.take = some (a, v) ∧ exec (decode a) v = .next t)) ∨
      (s.nextTurn.1 = .engine ∧ engineStep u = .next t) ∨
      (∃ b, s.nextTurn.1 = .reset b ∧ t = resetTurn b u) ∨
      (∃ z w p d, s.nextTurn.1 = .issue z w p d ∧ t = issueTurn z w p d u) ∨
      (∃ a b, s.nextTurn.1 = .agentWrite a b ∧ t = u.writeByte a.toNat b) ∨
      (∃ a b, s.nextTurn.1 = .hostStore a b ∧ t = hostStoreTurn a b u) ∨
      (∃ a, s.nextTurn.1 = .hostClean a ∧ t = hostCleanTurn a u)) := by
  have hr := step_next_running h
  refine ⟨hr, _, rfl, ?_⟩
  rw [step_of_running hr, State.nextTurn_snd] at h
  generalize hu : s.setScript s.script.tail = u at h ⊢
  cases ht : s.nextTurn.1 with
  | host =>
    refine .inl ⟨rfl, ?_⟩
    rw [ht] at h
    simp only [turnMove, hostTurn] at h
    by_cases hst : u.hostStuck = true
    · simp [hst, Move.outcome] at h
      exact .inl ⟨h.symm, .inl hst⟩
    · have hst' : u.hostStuck = false := by simpa using hst
      cases hk : u.take with
      | none =>
        simp [hst', hk, Move.outcome] at h
        exact .inl ⟨h.symm, .inr rfl⟩
      | some av =>
        obtain ⟨a, v⟩ := av
        simp only [hst', hk, Move.outcome] at h
        exact .inr ⟨a, v, hst', rfl, h⟩
  | engine => exact .inr (.inl ⟨rfl, by rw [ht] at h; exact h⟩)
  | reset b => exact .inr (.inr (.inl ⟨b, rfl, by rw [ht] at h; exact (Host.Outcome.next.inj h).symm⟩))
  | issue z w p d =>
    exact .inr (.inr (.inr (.inl ⟨z, w, p, d, rfl, by rw [ht] at h; exact (Host.Outcome.next.inj h).symm⟩)))
  | agentWrite a b =>
    exact .inr (.inr (.inr (.inr (.inl ⟨a, b, rfl, by rw [ht] at h; exact (Host.Outcome.next.inj h).symm⟩))))
  | hostStore a b =>
    exact .inr (.inr (.inr (.inr (.inr (.inl ⟨a, b, rfl, by rw [ht] at h; exact (Host.Outcome.next.inj h).symm⟩)))))
  | hostClean a =>
    exact .inr (.inr (.inr (.inr (.inr (.inr ⟨a, rfl, by rw [ht] at h; exact (Host.Outcome.next.inj h).symm⟩)))))

/-! ### Runs -/

theorem runSteps_zero (s : State) : runSteps 0 s = .next s := rfl

theorem runSteps_succ_of_next {s t : State} (h : step s = .next t) (k : Nat) : runSteps (k + 1) s = runSteps k t := by
  simp only [runSteps, h]

theorem runSteps_succ_of_fault {s : State} {f : Fault} (h : step s = .fault f) (k : Nat) :
    runSteps (k + 1) s = .fault f := by
  simp only [runSteps, h]

theorem runSteps_succ_of_refused {s : State} {r : Refusal} (h : step s = .refused r) (k : Nat) :
    runSteps (k + 1) s = .refused r := by
  simp only [runSteps, h]

/-- A run of k + 1 steps with a next state begins with a step that has one. -/
theorem runSteps_succ_next {s u : State} {k : Nat} (h : runSteps (k + 1) s = .next u) :
    ∃ t, step s = .next t ∧ runSteps k t = .next u := by
  cases hs : step s with
  | next t => exact ⟨t, rfl, by rw [← runSteps_succ_of_next hs]; exact h⟩
  | fault f => rw [runSteps_succ_of_fault hs] at h; cases h
  | refused r => rw [runSteps_succ_of_refused hs] at h; cases h

/-- Runs compose. -/
theorem runSteps_add {s u : State} {j : Nat} (h : runSteps j s = .next u) (k : Nat) :
    runSteps (j + k) s = runSteps k u := by
  induction j generalizing s with
  | zero => rw [Nat.zero_add, ← Host.Outcome.next.inj h]
  | succ j ih =>
    obtain ⟨t, ht, hu⟩ := runSteps_succ_next h
    rw [show j + 1 + k = j + k + 1 by omega, runSteps_succ_of_next ht]
    exact ih hu

/-- The model's run is the host interface's run of the machine. -/
theorem core_run_eq (k : Nat) (s : State) : core.run k s = runSteps k s := by
  induction k generalizing s with
  | zero => rfl
  | succ k ih =>
    simp only [Host.Core.run, runSteps, core]
    cases step s with
    | next t => exact ih t
    | fault f => rfl
    | refused r => rfl

end Sys2Proof.Machine
end

