-- ==== Sys2Proof/Tests/Slice0.lean ====
section
/-! SUPPORT. Tests with expected results from the spec: words written out from 30_encoding.md R91, R93, R95 and R96,
steps from the vectors of 95_test_vectors.md, and one witness for the hypotheses of every statement. -/

namespace Sys2Proof.Tests

open Sys2Proof.Machine

/-! ### Ill-formed terms are refused (WellFormed) -/

theorem test_wf_rsvd6to7 : (Instr.rsvdIndex6to7 5 .read).wellFormed = false ∧
    (Instr.rsvdIndex6to7 8 .read).wellFormed = false ∧ (Instr.rsvdIndex6to7 6 .read).wellFormed = true ∧
    (Instr.rsvdIndex6to7 7 .read).wellFormed = true := by decide
theorem test_wf_rsvd8to15 : (Instr.rsvdIndex8to15 7 .read).wellFormed = false ∧
    (Instr.rsvdIndex8to15 16 .read).wellFormed = false := by decide
theorem test_wf_rsvd16to31 : (Instr.rsvdIndex16to31 15 .read).wellFormed = false ∧
    (Instr.rsvdIndex16to31 32 .read).wellFormed = false := by decide
theorem test_wf_rsvd32to63 : (Instr.rsvdIndex32to63 31 .read).wellFormed = false ∧
    (Instr.rsvdIndex32to63 64 .read).wellFormed = false := by decide
theorem test_wf_rsvd64to127 : (Instr.rsvdIndex64to127 63 .read).wellFormed = false ∧
    (Instr.rsvdIndex64to127 128 .read).wellFormed = false := by decide
theorem test_wf_rsvd128to255 : (Instr.rsvdIndex128to255 127 .read).wellFormed = false ∧
    (Instr.rsvdIndex128to255 256 .read).wellFormed = false := by decide
theorem test_wf_rsvd256to511 : (Instr.rsvdIndex256to511 255 .read).wellFormed = false ∧
    (Instr.rsvdIndex256to511 512 .read).wellFormed = false := by decide
theorem test_wf_rsvd512to1023 : (Instr.rsvdIndex512to1023 511 .read).wellFormed = false ∧
    (Instr.rsvdIndex512to1023 1023 .read).wellFormed = true := by decide
theorem test_wf_refusedOdd : (Instr.refusedOffsetOdd 0x010 .read).wellFormed = false := by decide
theorem test_wf_refusedTwo : (Instr.refusedOffsetTwo 0x010 .read).wellFormed = false ∧
    (Instr.refusedOffsetTwo 0x013 .read).wellFormed = false := by decide
theorem test_wf_cmdRsvd2to3 : (Instr.cmdRsvd2to3 1).wellFormed = false ∧
    (Instr.cmdRsvd2to3 4).wellFormed = false := by decide
theorem test_wf_cmdRsvd4to7 : (Instr.cmdRsvd4to7 3).wellFormed = false ∧
    (Instr.cmdRsvd4to7 8).wellFormed = false := by decide
theorem test_wf_cmdRsvd8to15 : (Instr.cmdRsvd8to15 7).wellFormed = false ∧
    (Instr.cmdRsvd8to15 15).wellFormed = true := by decide

/-! ### Every constructor's word, written out from R91, R93, R95 and R96: SIZE, W, OFFSET -/

theorem test_decode_rdAddr : decodeTableWord 16 0b10_0_000000000000 = some .rdAddr := by decide
theorem test_decode_wrAddr : decodeTableWord 48 (0b10_1_000000000000 + 0x20000000 * 2 ^ 16) =
    some (.wrAddr 0x20000000) := by decide
theorem test_decode_rdLen : decodeTableWord 16 0b10_0_000000000100 = some .rdLen := by decide
theorem test_decode_wrLen : decodeTableWord 48 (0b10_1_000000000100 + 8 * 2 ^ 16) = some (.wrLen 8) := by decide
theorem test_decode_rdCtrl : decodeTableWord 16 0b10_0_000000001000 = some .rdCtrl := by decide
theorem test_decode_wrCtrl : decodeTableWord 48 (0b10_1_000000001000 + 1 * 2 ^ 16) = some (.wrCtrl 1) := by decide
theorem test_decode_rdStatus : decodeTableWord 16 0b10_0_000000001100 = some .rdStatus := by decide
theorem test_decode_wrStatus : decodeTableWord 48 (0b10_1_000000001100 + 0xFFFFFFFF * 2 ^ 16) =
    some (.wrStatus 0xFFFFFFFF) := by decide
theorem test_decode_rdResult : decodeTableWord 16 0b10_0_000000010000 = some .rdResult := by decide
theorem test_decode_wrResult : decodeTableWord 48 (0b10_1_000000010000 + 0x1234 * 2 ^ 16) =
    some (.wrResult 0x1234) := by decide
theorem test_decode_rsvdIndex5 : decodeTableWord 16 0b10_0_000000010100 = some (.rsvdIndex5 .read) := by decide
theorem test_decode_rsvdIndex6to7 : decodeTableWord 16 0b10_0_000000011000 = some (.rsvdIndex6to7 6 .read) ∧
    decodeTableWord 16 0b10_1_000000011100 = some (.rsvdIndex6to7 7 (.write 0)) := by decide
theorem test_decode_rsvdIndex8to15 : decodeTableWord 16 0b10_0_000000100000 = some (.rsvdIndex8to15 8 .read) ∧
    decodeTableWord 16 0b10_0_000000111100 = some (.rsvdIndex8to15 15 .read) := by decide
theorem test_decode_rsvdIndex16to31 : decodeTableWord 16 0b10_0_000001000000 = some (.rsvdIndex16to31 16 .read) ∧
    decodeTableWord 16 0b10_0_000001111100 = some (.rsvdIndex16to31 31 .read) := by decide
theorem test_decode_rsvdIndex32to63 : decodeTableWord 16 0b10_0_000010000000 = some (.rsvdIndex32to63 32 .read) ∧
    decodeTableWord 16 0b10_0_000011111100 = some (.rsvdIndex32to63 63 .read) := by decide
theorem test_decode_rsvdIndex64to127 : decodeTableWord 16 0b10_0_000100000000 = some (.rsvdIndex64to127 64 .read) ∧
    decodeTableWord 16 0b10_0_000111111100 = some (.rsvdIndex64to127 127 .read) := by decide
theorem test_decode_rsvdIndex128to255 : decodeTableWord 16 0b10_0_001000000000 = some (.rsvdIndex128to255 128 .read) ∧
    decodeTableWord 16 0b10_0_001111111100 = some (.rsvdIndex128to255 255 .read) := by decide
theorem test_decode_rsvdIndex256to511 : decodeTableWord 16 0b10_0_010000000000 = some (.rsvdIndex256to511 256 .read) ∧
    decodeTableWord 16 0b10_0_011111111100 = some (.rsvdIndex256to511 511 .read) := by decide
/-- V59: WR @0xFFC desc=0x5FFC data=0x00000005. -/
theorem test_decode_rsvdIndex512to1023 :
    decodeTableWord 16 0b10_0_100000000000 = some (.rsvdIndex512to1023 512 .read) ∧
    decodeTableWord 48 0x00000005_5FFC = some (.rsvdIndex512to1023 1023 (.write 5)) := by decide
/-- V60: desc=0x0010, an 8-bit read of RESULT. -/
theorem test_decode_refusedSize0 : decodeTableWord 16 0b00_0_000000010000 = some (.refusedSize0 0x010 .read) := by
  decide
/-- V60: desc=0x200C, a 16-bit read of STATUS. -/
theorem test_decode_refusedSize1 : decodeTableWord 16 0b01_0_000000001100 = some (.refusedSize1 0x00C .read) := by
  decide
/-- V60: desc=0x600C. -/
theorem test_decode_refusedSize3 : decodeTableWord 16 0b11_0_000000001100 = some (.refusedSize3 0x00C .read) := by
  decide
/-- V60: desc=0x4011. OFFSET[1:0] = 3 is of this row too. -/
theorem test_decode_refusedOffsetOdd : decodeTableWord 16 0b10_0_000000010001 = some (.refusedOffsetOdd 0x011 .read) ∧
    decodeTableWord 16 0b10_0_000000010011 = some (.refusedOffsetOdd 0x013 .read) := by decide
/-- V60: desc=0x5006. -/
theorem test_decode_refusedOffsetTwo :
    decodeTableWord 16 0b10_1_000000000110 = some (.refusedOffsetTwo 0x006 (.write 0)) := by decide
theorem test_decode_nop : decodeTableWord 32 0x00000000 = some .nop ∧ decodeTableWord 32 0xFFFFFFF0 = some .nop := by
  decide
theorem test_decode_start : decodeTableWord 32 0x00000001 = some .start ∧ decodeTableWord 32 0x11 = some .start := by
  decide
theorem test_decode_cmdRsvd2to3 : decodeTableWord 32 2 = some (.cmdRsvd2to3 2) ∧
    decodeTableWord 32 3 = some (.cmdRsvd2to3 3) := by decide
theorem test_decode_cmdRsvd4to7 : decodeTableWord 32 4 = some (.cmdRsvd4to7 4) ∧
    decodeTableWord 32 7 = some (.cmdRsvd4to7 7) := by decide
theorem test_decode_cmdRsvd8to15 : decodeTableWord 32 8 = some (.cmdRsvd8to15 8) ∧
    decodeTableWord 32 0xF = some (.cmdRsvd8to15 15) := by decide
/-- No transaction has these widths or these bits (R90, R91). -/
theorem test_decode_rejects : decodeTableWord 8 0 = none ∧ decodeTableWord 16 0x8000 = none ∧
    decodeTableWord 32 0x100000000 = none ∧ decodeTableWord 48 0x8000 = none := by decide

/-! ### Small states -/

/-- What an outcome holds when it is a next state. -/
def next? : Host.Outcome State Fault Refusal → Option State
  | .next s => some s
  | .fault _ => none
  | .refused _ => none

/-- The fault an outcome is. -/
def fault? : Host.Outcome State Fault Refusal → Option Fault
  | .next _ => none
  | .fault f => some f
  | .refused _ => none

/-- The refusal an outcome is. -/
def refusal? : Host.Outcome State Fault Refusal → Option Refusal
  | .next _ => none
  | .fault _ => none
  | .refused r => some r

theorem eq_next {o : Host.Outcome State Fault Refusal} {t : State} (h : next? o = some t) : o = .next t := by
  cases o with
  | next s => rw [Option.some.inj h]
  | fault f => cases h
  | refused r => cases h

theorem eq_fault {o : Host.Outcome State Fault Refusal} {f : Fault} (h : fault? o = some f) : o = .fault f := by
  cases o with
  | next s => cases h
  | fault g => rw [Option.some.inj h]
  | refused r => cases h

theorem eq_refused {o : Host.Outcome State Fault Refusal} {r : Refusal} (h : refusal? o = some r) :
    o = .refused r := by
  cases o with
  | next s => cases h
  | fault f => cases h
  | refused q => rw [Option.some.inj h]

/-- The RFC bytes 00 01 f2 03 f4 f5 f6 f7 from address a; the byte 00 is not listed. -/
def rfcAt (a : Nat) : Memory :=
  [(a + 1, 0x01), (a + 2, 0xF2), (a + 3, 0x03), (a + 4, 0xF4), (a + 5, 0xF5), (a + 6, 0xF6), (a + 7, 0xF7)]

/-- The reset state with ADDR and LEN written, over the RFC bytes at a. -/
def staged (a n : Word) : State := { State.reset with addr := a, len := n, mem := rfcAt a.toNat }

/-- The operation over [a, a + n) in progress, at PTR with REM bytes to go and ACC so far. -/
def running (a n ptr rem acc : Word) : State :=
  { staged a n with busy := true, eng := { ptr := ptr, rem := rem, acc := acc, swap := a.getLsbD 0 } }

/-- STATUS = 0x2 and RES = 0xDDF2, as after V1. -/
def finished : State := { staged 0x20000000 8 with done := true, res := 0xDDF2 }

/-- With these transactions in the queue and these turns to come. -/
def under (s : State) (turns : List Turn) (queue : List Access) : State := { s with script := turns, queue := queue }

/-- A platform on which exactly one region is readable. -/
def platformOf (r : Region) : Platform := { csumBase := 0x40000000, regions := [r], coherent := false }

/-! ### Register transactions: V50 to V60 -/

/-- V50, RD ADDR. -/
theorem test_rdAddr : next? (exec .rdAddr State.reset) = some { State.reset with reads := [0] } := by decide
/-- V51. -/
theorem test_wrAddr : (next? (exec (.wrAddr 0x20000001) State.reset)).map (·.addr) = some 0x20000001 := by decide
/-- V63: RD ADDR while busy returns the staged value. -/
theorem test_rdAddr_busy : (next? (exec .rdAddr { running 0x20000000 8 0x20000000 8 0 with addr := 0x30000000 })).map
    (fun t => (t.reads, t.eng.ptr)) = some ([0x30000000], 0x20000000) := by decide
/-- V52: the write does not fault. -/
theorem test_wrLen : (next? (exec (.wrLen 0xFFFFFFFF) State.reset)).map (·.len) = some 0xFFFFFFFF := by decide
/-- V52. -/
theorem test_rdLen : (next? (exec .rdLen { State.reset with len := 0xFFFFFFFF })).map (·.reads) =
    some [0xFFFFFFFF] := by decide
/-- V50, P4: RD CTRL returns 0. -/
theorem test_rdCtrl : (next? (exec .rdCtrl finished)).map (·.reads) = some [0] := by decide
/-- V54: DATA = 0x11 decodes as START; ADDR = LEN = 0 from reset. -/
theorem test_wrCtrl_start : (next? (exec (.wrCtrl 0x11) State.reset)).map (fun t => statusWord t) = some 1 := by decide
/-- V56: DATA = 0xFFFFFFF0 is NOP. -/
theorem test_wrCtrl_nop : next? (exec (.wrCtrl 0xFFFFFFF0) finished) = some finished := by decide
/-- V66: 0x1 while busy, and 0x2 when done. -/
theorem test_rdStatus : (next? (exec .rdStatus (running 0x20000000 8 0x20000000 8 0))).map (·.reads) = some [1] ∧
    (next? (exec .rdStatus finished)).map (·.reads) = some [2] := by decide
/-- V57. -/
theorem test_wrStatus : next? (exec (.wrStatus 0xFFFFFFFF) (running 0x20000000 8 0x20000000 8 0)) =
    some (running 0x20000000 8 0x20000000 8 0) := by decide
/-- V58: RD RESULT returns 0x0000DDF2. -/
theorem test_rdResult : (next? (exec .rdResult finished)).map (·.reads) = some [0x0000DDF2] := by decide
/-- V62: RD RESULT while busy is held; it returns nothing yet. -/
theorem test_rdResult_held :
    let s := { running 0x20000001 8 0x20000001 8 0 with pending := some (encode .rdResult) }
    next? (exec .rdResult s) = some s := by decide
/-- V58: WR RESULT changes nothing. -/
theorem test_wrResult : next? (exec (.wrResult 0x1234) finished) = some finished := by decide
/-- V59: RD @0x014. -/
theorem test_rsvdIndex5 : (next? (exec (.rsvdIndex5 .read) finished)).map (·.reads) = some [0] := by decide
/-- V59: WR @0xFFC, while busy. -/
theorem test_rsvdIndex512to1023 : next? (exec (.rsvdIndex512to1023 1023 (.write 5)) (running 0x20000000 8 0x20000000 8 0)) =
    some (running 0x20000000 8 0x20000000 8 0) := by decide
theorem test_rsvdIndex6to7 : (next? (exec (.rsvdIndex6to7 7 .read) finished)).map (·.reads) = some [0] := by decide
theorem test_rsvdIndex8to15 : (next? (exec (.rsvdIndex8to15 8 .read) finished)).map (·.reads) = some [0] := by decide
theorem test_rsvdIndex16to31 : next? (exec (.rsvdIndex16to31 16 (.write 1)) finished) = some finished := by decide
theorem test_rsvdIndex32to63 : next? (exec (.rsvdIndex32to63 63 (.write 1)) finished) = some finished := by decide
theorem test_rsvdIndex64to127 : (next? (exec (.rsvdIndex64to127 64 .read) finished)).map (·.reads) = some [0] := by
  decide
theorem test_rsvdIndex128to255 : next? (exec (.rsvdIndex128to255 200 (.write 1)) finished) = some finished := by decide
theorem test_rsvdIndex256to511 : (next? (exec (.rsvdIndex256to511 511 .read) finished)).map (·.reads) = some [0] := by
  decide
/-- V60: refused with RF1. -/
theorem test_refused_sizes : refusal? (exec (decode (.reg 0x200C 0)) finished) = some .illegalAccess ∧
    refusal? (exec (decode (.reg 0x0010 0)) finished) = some .illegalAccess ∧
    refusal? (exec (decode (.reg 0x600C 0)) finished) = some .illegalAccess := by decide
/-- V60: refused with RF1. -/
theorem test_refused_offsets : refusal? (exec (decode (.reg 0x4011 0)) finished) = some .illegalAccess ∧
    refusal? (exec (decode (.reg 0x5006 0)) finished) = some .illegalAccess := by decide

/-! ### Commands: V53 to V55, V61, V64, V65 -/

/-- V53. -/
theorem test_nop : next? (exec .nop finished) = some finished := by decide
/-- V55. -/
theorem test_cmdRsvd4to7 : next? (exec (.cmdRsvd4to7 7) finished) = some finished := by decide
theorem test_cmdRsvd2to3 : next? (exec (.cmdRsvd2to3 2) finished) = some finished := by decide
/-- P4: WR CTRL, 0x0000000F. -/
theorem test_cmdRsvd8to15 : next? (exec (.cmdRsvd8to15 15) finished) = some finished := by decide
/-- V66: START after an operation clears DONE and sets BUSY. -/
theorem test_start : next? (exec .start finished) =
    some { running 0x20000000 8 0x20000000 8 0 with res := 0xDDF2 } := by decide
/-- V65: MF2 with ADDR = 0xFFFFFFFF and LEN = 2; V64: LEN = 1 does not fault. -/
theorem test_start_wrap : fault? (exec .start (staged 0xFFFFFFFF 2)) = some (.bufferWrap 0xFFFFFFFF 2) ∧
    (next? (exec .start (staged 0xFFFFFFFF 1))).map (·.busy) = some true := by decide

/-! ### Engine steps: V1, V2, V5, V13, V22, V80, V83 -/

/-- V1, the first WORD step and the second. -/
theorem test_word : next? (engineStep (running 0x20000000 8 0x20000000 8 0)) =
      some (running 0x20000000 8 0x20000004 4 0x0001F203) ∧
    next? (engineStep (running 0x20000000 8 0x20000004 4 0x0001F203)) =
      some (running 0x20000000 8 0x20000008 0 0xF4F7E8FA) := by decide
/-- V22: eng.PTR wraps to 0 after the last WORD step. -/
theorem test_word_top : (next? (engineStep (running 0xFFFFFFFC 4 0xFFFFFFFC 4 0))).map (·.eng.ptr) = some 0 := by
  decide
/-- V2: BYTE @0x20000003 v=0xF2 addend 0x00F2, and BYTE @0x20000008 v=0xF7 addend 0xF700. -/
theorem test_byte : next? (engineStep (running 0x20000001 8 0x20000003 6 0x00000100)) =
      some (running 0x20000001 8 0x20000004 5 0x000001F2) ∧
    next? (engineStep (running 0x20000001 8 0x20000008 1 0x03F4F7E8)) =
      some (running 0x20000001 8 0x20000009 0 0x03F5EEE8) := by decide
/-- V1: FOLD, twice. -/
theorem test_fold : next? (engineStep (running 0x20000000 8 0x20000008 0 0xF4F7E8FA)) =
      some (running 0x20000000 8 0x20000008 0 0x0001DDF1) ∧
    next? (engineStep (running 0x20000000 8 0x20000008 0 0x0001DDF1)) =
      some (running 0x20000000 8 0x20000008 0 0x0000DDF2) := by decide
/-- V1 and V2: FINISH with SWAP = 0 and with SWAP = 1. -/
theorem test_finish : (next? (engineStep (running 0x20000000 8 0x20000008 0 0xDDF2))).map
      (fun t => (t.res, t.busy, t.done)) = some (0xDDF2, false, true) ∧
    (next? (engineStep (running 0x20000001 8 0x20000009 0 0xF2DD))).map
      (fun t => (t.res, t.busy, t.done)) = some (0xDDF2, false, true) := by decide
/-- V80: the WORD step at 0x20000004 covers the unreadable 0x20000005. V81: the BYTE step at 0x20000003. -/
theorem test_unreadable :
    fault? (engineStep { running 0x20000001 8 0x20000004 5 0x000001F2 with
      platform := platformOf { base := 0x20000000, size := 5, kind := .memory } }) =
        some (.unreadable 0x20000004) ∧
    fault? (engineStep { running 0x20000003 1 0x20000003 1 0 with
      platform := platformOf { base := 0x20000000, size := 3, kind := .memory } }) =
        some (.unreadable 0x20000003) := by decide
/-- V83: a reset during V2 with a RD RESULT held. -/
theorem test_reset :
    let t := resetTurn true { running 0x20000001 8 0x20000008 1 0x03F4F7E8 with pending := some (encode .rdResult) }
    (t.addr, t.len, statusWord t, t.res, t.pending) = (0, 0, 0, 0, none) := by decide

/-! ### The checksum function: V26, V34 to V49, R136's example -/

theorem test_fold16 : fold16 0x0002DDF0 = 0x0DDF2 ∧ fold16 0xFFFFFFFF = 0x1FFFE ∧ fold16 0x00010000 = 1 := by decide
theorem test_addEac : addEac 0xFFFFFFFF 0xFFFFFFFF = 0xFFFFFFFF ∧ addEac 0x80000000 0x80000000 = 1 ∧
    addEac 0x12345678 0x9ABCDEF0 = 0xACF13568 := by decide
theorem test_swap16 : swap16 0xF2DD = 0xDDF2 ∧ swap16 0x00FF = 0xFF00 := by decide
theorem test_weighted : wordSum [0x01, 0x02, 0x03] = 0x0402 ∧ wordSum [0x00, 0x01, 0xF2] = 0xF201 := by decide

/-! ### Witnesses: concrete states and operands that meet a statement's hypotheses together -/

/-- The operation of V1 at its start, and at its FINISH. -/
def atStart : State := running 0x20000000 8 0x20000000 8 0
def atFinish : State := running 0x20000000 8 0x20000008 0 0xDDF2

theorem witness_HostTurn_pending :
    let s := { under finished [.host, .engine] [encode .rdLen] with pending := some (encode .rdResult) }
    s.running ∧ s.hostStuck = false ∧ s.script = .host :: [.engine] ∧ s.pending = some (encode .rdResult) := by decide
theorem witness_HostTurn_queue :
    let s := under finished [.host] [encode .rdLen]
    s.running ∧ s.hostStuck = false ∧ s.script = .host :: [] ∧ s.pending = none ∧ s.queue = encode .rdLen :: [] := by
  decide
theorem witness_HostTurn_empty :
    let s := under finished [.host] []
    s.running ∧ s.hostStuck = false ∧ s.script = .host :: [] ∧ s.pending = none ∧ s.queue = [] := by decide
theorem witness_FetchedWord : atStart.running ∧ decodeTableWord 48 0x00000008_5004 = some (.wrLen 8) := by decide
theorem witness_DecodeInvertsEncode : (Instr.rsvdIndex512to1023 1023 (.write 0xFFFFFFFF)).wellFormed = true ∧
    (Instr.refusedOffsetTwo 0xFFE .read).wellFormed = true ∧ (Instr.cmdRsvd8to15 15).wellFormed = true := by decide
/-- A refused size, a refused alignment, RD LEN, and the first and the last reserved offset. -/
theorem witness_RegisterIndex : descSize 0x200C ≠ 2 ∧ (descOffset 0x4013).toNat % 4 ≠ 0 ∧
    (descSize 0x4004 = 2 ∧ descOffset 0x4004 = 0x004) ∧
    (descSize 0x4014 = 2 ∧ (descOffset 0x4014).toNat % 4 = 0 ∧ 0x014 ≤ (descOffset 0x4014).toNat) ∧
    (descSize 0x5FFC = 2 ∧ (descOffset 0x5FFC).toNat % 4 = 0 ∧ 0x014 ≤ (descOffset 0x5FFC).toNat) := by decide
/-- The first and the last offset of the window, and the host addresses on both sides of it. -/
theorem witness_Window :
    let s (h : Nat) : State := { under finished [.issue 2 false h 0] [] with
      platform := platformOf { base := 0, size := 4096, kind := .memory } }
    (∀ h, (s h).running ∧ (s h).hostStuck = false ∧ (s h).script = .issue 2 false h 0 :: []) ∧
    0x40000000 = (s 0x40000000).platform.csumBase + (0x000 : BitVec 12).toNat ∧
    0x40000FFF = (s 0x40000FFF).platform.csumBase + (0xFFF : BitVec 12).toNat ∧
    0x3FFFFFFF < (s 0x3FFFFFFF).platform.csumBase ∧ (s 0x40001000).platform.csumBase + 4096 ≤ 0x40001000 :=
  ⟨fun _ => ⟨⟨rfl, rfl⟩, rfl, rfl⟩, rfl, rfl, by decide, by decide⟩
theorem witness_ResultRead : atStart.busy = true ∧ finished.busy = false := by decide
theorem witness_CtrlWrite : atStart.busy = true ∧ (0x11 : Word).toNat % 16 = (0x1 : Word).toNat % 16 := by decide
/-- START accepted at ADDR + LEN = 2^32 exactly, and beside a location whose reads have side effects. -/
theorem witness_CtrlWriteCompletes :
    (finished.busy = false ∧ (0xFFFFFFF0 : Word).toNat % 16 ≠ 1) ∧
    (let s := { staged 0xFFFFFFFC 4 with
      platform := platformOf { base := 0xFFFFFFF8, size := 4, kind := .sideEffect } }
     s.busy = false ∧ (0x11 : Word).toNat % 16 = 1 ∧ s.addr.toNat + s.len.toNat ≤ 2 ^ 32 ∧
      sideEffectBufferAt s.platform s.addr.toNat s.len.toNat = false) := by decide
theorem witness_IdleCommands : Instr.cmdRsvd8to15 15 ∈
      ([.nop, .cmdRsvd2to3 15, .cmdRsvd4to7 15, .cmdRsvd8to15 15] : List Instr) ∧
    ((0xFFFFFFF2 : Word).toNat % 16 ≠ 1 ∧ Instr.cmdRsvd2to3 2 = decode (.cmd 0xFFFFFFF2)) ∧ atStart.busy = true ∧
    finished.busy = false := by decide
theorem witness_StartLatches : (0xFFFFFFF1 : Word).toNat % 16 = 1 ∧ atStart.busy = true ∧
    (staged 0xFFFFFFFF 2).busy = false ∧
    2 ^ 32 < (staged 0xFFFFFFFF 2).addr.toNat + (staged 0xFFFFFFFF 2).len.toNat ∧ (staged 0xFFFFFFFF 1).busy = false ∧
    (staged 0xFFFFFFFF 1).addr.toNat + (staged 0xFFFFFFFF 1).len.toNat ≤ 2 ^ 32 ∧
    sideEffectBufferAt (staged 0xFFFFFFFF 1).platform (staged 0xFFFFFFFF 1).addr.toNat
      (staged 0xFFFFFFFF 1).len.toNat = false := by decide
/-- MF2 one byte past 2^32, and RF2 by the buffer's last byte. -/
theorem witness_StartStops :
    ((staged 0xFFFFFFFF 2).busy = false ∧
      2 ^ 32 < (staged 0xFFFFFFFF 2).addr.toNat + (staged 0xFFFFFFFF 2).len.toNat) ∧
    (let s := { staged 0x20000000 8 with
      platform := platformOf { base := 0x20000007, size := 1, kind := .sideEffect } }
     s.busy = false ∧ s.addr.toNat + s.len.toNat ≤ 2 ^ 32 ∧ sideEffectAt s.platform (s.addr.toNat + 7) = true ∧
      refusal? (exec .start s) = some .sideEffectBuffer) := by decide
/-- V61 and V62. -/
theorem witness_Held :
    (let s := { under atStart [.host] [] with pending := some (encode (.wrCtrl 1)) }
     s.running ∧ s.hostStuck = false ∧ s.script = .host :: [] ∧ s.busy = true ∧
      s.pending = some (encode (.wrCtrl 1)) ∧ holdable (decode (encode (.wrCtrl 1))) = true) ∧
    (let s := under atStart [.host] [encode .rdResult, encode .rdStatus]
     s.running ∧ s.hostStuck = false ∧ s.script = .host :: [] ∧ s.busy = true ∧ s.pending = none ∧
      s.queue = encode .rdResult :: [encode .rdStatus] ∧ holdable (decode (encode .rdResult)) = true) := by decide
/-- V63: a write to LEN while V1 runs. -/
theorem witness_TransactionsDoNotTouch : atStart.busy = true ∧ exec (.wrLen 0x10) atStart =
    .next { atStart with len := 0x10 } := ⟨rfl, rfl⟩
theorem witness_IdleEngine : (under finished [.engine] []).running ∧
    (under finished [.engine] []).script = .engine :: [] ∧ (under finished [.engine] []).busy = false := by decide
/-- V2's head byte, and V80's unreadable one; an aligned byte with REM = 3. -/
theorem witness_ByteStep :
    (let s := under (running 0x20000001 8 0x20000003 6 0x100) [.engine] []
     s.running ∧ s.script = .engine :: [] ∧ s.busy = true ∧ 0 < s.eng.rem.toNat ∧
      (s.eng.ptr.toNat % 4 ≠ 0 ∨ s.eng.rem.toNat < 4) ∧ readable s.platform s.eng.ptr.toNat = true) ∧
    (let s := { under (running 0x20000000 3 0x20000000 3 0) [.engine] [] with
      platform := platformOf { base := 0x20000001, size := 4, kind := .memory } }
     s.running ∧ s.script = .engine :: [] ∧ s.busy = true ∧ 0 < s.eng.rem.toNat ∧
      (s.eng.ptr.toNat % 4 ≠ 0 ∨ s.eng.rem.toNat < 4) ∧ readable s.platform s.eng.ptr.toNat = false) := by decide
/-- REM = 4 exactly, and an unreadable last byte. -/
theorem witness_WordStep :
    (let s := under (running 0x20000000 8 0x20000004 4 0) [.engine] []
     s.running ∧ s.script = .engine :: [] ∧ s.busy = true ∧ 4 ≤ s.eng.rem.toNat ∧ s.eng.ptr.toNat % 4 = 0 ∧
      ∀ k < 4, readable s.platform (s.eng.ptr.toNat + k) = true) ∧
    (let s := { under (running 0x20000000 8 0x20000004 4 0) [.engine] [] with
      platform := platformOf { base := 0x20000000, size := 7, kind := .memory } }
     s.running ∧ s.script = .engine :: [] ∧ s.busy = true ∧ 4 ≤ s.eng.rem.toNat ∧ s.eng.ptr.toNat % 4 = 0 ∧
      ∃ k < 4, readable s.platform (s.eng.ptr.toNat + k) = false) := by decide
theorem witness_FoldAndFinish :
    (let s := under (running 0x20000000 8 0x20000008 0 0x10000) [.engine] []
     s.running ∧ s.script = .engine :: [] ∧ s.busy = true ∧ s.eng.rem.toNat = 0 ∧ 0xFFFF < s.eng.acc.toNat) ∧
    (let s := under (running 0x20000000 8 0x20000008 0 0xFFFF) [.engine] []
     s.running ∧ s.script = .engine :: [] ∧ s.busy = true ∧ s.eng.rem.toNat = 0 ∧ s.eng.acc.toNat ≤ 0xFFFF) := by
  decide
/-- V80 and V65 as steps. -/
theorem witness_ModelFaults :
    (let s := { running 0x20000001 8 0x20000004 5 0x1F2 with
      platform := platformOf { base := 0x20000000, size := 5, kind := .memory } }
     s.running ∧ step s = .fault (.unreadable 0x20000004)) ∧
    (let s := under (staged 0xFFFFFFFF 2) [.host] [encode (.wrCtrl 1)]
     s.running ∧ step s = .fault (.bufferWrap 0xFFFFFFFF 2)) :=
  ⟨⟨⟨rfl, rfl⟩, eq_fault (by decide)⟩, ⟨⟨rfl, rfl⟩, eq_fault (by decide)⟩⟩
theorem witness_OneFold : 0xFFFF < 0x10000 ∧ 0xFFFF ≤ 0xFFFF := by decide
theorem witness_IteratedFold : 0xFFFF ≤ 0xFFFF ∧ 0xFFFF < 0x10000 ∧ 0xFFFFFFFF ≤ 0xFFFFFFFF := by decide
theorem witness_WordSum : ([0x01, 0x02] : List Byte).length % 2 = 0 ∧ ([] : List Byte).length % 2 = 0 := by decide
theorem witness_ChecksumComposes : ([0x00, 0x01] : List Byte).length % 2 = 0 ∧
    ([0x00, 0x01, 0xF2] : List Byte).length % 2 = 1 := by decide
theorem witness_FoldTiming : 0x1FFFE % 0xFFFF = 0xFFFF % 0xFFFF ∧ (0x1FFFE = 0 ↔ 0xFFFF = 0) := by decide
theorem witness_MemoryHolds :
    ((under finished [.agentWrite 0xFFFFFFFF 0x5A] []).running ∧
      (under finished [.agentWrite 0xFFFFFFFF 0x5A] []).script = .agentWrite 0xFFFFFFFF 0x5A :: []) ∧
    (Memory.wf (rfcAt 0x20000000) ∧ Memory.wf (rfcAt 0x20000000) ∧
      ∀ a, Memory.read (rfcAt 0x20000000) a = Memory.read (rfcAt 0x20000000) a) :=
  ⟨by decide, by decide, by decide, fun _ => rfl⟩
theorem witness_HostStores :
    let s := under finished [.hostStore 0x20000000 1, .hostClean 0x20000000] []
    let s' := { s with platform := platformOf { base := 0, size := 4096, kind := .memory } }
    (s.running ∧ s.hostStuck = false ∧ s.script = .hostStore 0x20000000 1 :: [.hostClean 0x20000000] ∧
      s.platform.coherent = true) ∧ s'.running ∧ s'.hostStuck = false ∧
    s'.script = .hostStore 0x20000000 1 :: .hostClean 0x20000000 :: [] ∧ s'.platform.coherent = false := by decide
theorem witness_BlockNeverWrites : step atFinish = .next { atFinish with res := 0xDDF2, busy := false, done := true } :=
  eq_next (by decide)
theorem witness_ResetTurn :
    let s := { under atStart [.reset false] [] with pending := some (encode .rdResult) }
    s.running ∧ s.script = .reset false :: [] ∧ s.pending.isSome = true := by decide
theorem witness_Stuck :
    (let s := { under atStart [.reset false] [] with pending := some (encode .rdResult) }
     s.running ∧ s.pending = some (encode .rdResult) ∧ s.script = .reset false :: []) ∧
    (let s := { under finished [.reset true] [] with hostStuck := true }
     s.running ∧ s.pending = none ∧ s.script = .reset true :: []) ∧
    (let s := { under finished [.host] [encode .rdStatus] with hostStuck := true }
     s.running ∧ s.hostStuck = true ∧ s.script = .host :: []) := by decide
/-- A clean, and the engine's turn under an empty script, of a stuck host. -/
theorem witness_Stuck_stays :
    (let s := { under finished [.hostClean 0x20000000] [] with hostStuck := true }
     s.hostStuck = true ∧ step s = .next { s with script := [] } ∧ s.nextTurn.1 ≠ .reset true) ∧
    (let s := { atStart with hostStuck := true }
     s.hostStuck = true ∧ s.script = [] ∧
      step s = .next { running 0x20000000 8 0x20000004 4 0x0001F203 with hostStuck := true } ∧
      s.nextTurn.1 ≠ .reset true) :=
  ⟨⟨rfl, eq_next (by decide), by decide⟩, ⟨rfl, rfl, eq_next (by decide), by decide⟩⟩
/-- R254: a host that waits for ever has not come to the end of its program. -/
theorem test_final : State.reset.final ∧ ¬ ({ State.reset with hostStuck := true } : State).final := by decide
theorem witness_OnlyFinishAndReset :
    let t := { atFinish with res := 0xDDF2, busy := false, done := true }
    step atFinish = .next t ∧ t.res ≠ atFinish.res := ⟨eq_next (by decide), by decide⟩
/-- START from the queue. -/
theorem witness_OnlyStartFinishAndReset :
    let s := under finished [.host] [encode (.wrCtrl 1)]
    let t := { atStart with res := 0xDDF2 }
    step s = .next t ∧ ¬ (t.busy = s.busy ∧ t.done = s.done) := ⟨eq_next (by decide), by decide⟩
theorem witness_RecordedFaults :
    step atStart = .next (running 0x20000000 8 0x20000004 4 0x0001F203) ∧
    (let s := under (staged 0xFFFFFFFF 2) [.host] [encode (.wrCtrl 1)]
     s.running ∧ step s = .fault (.bufferWrap 0xFFFFFFFF 2)) ∧
    (let s := under finished [.host] [.reg 0x200C 0]
     s.running ∧ step s = .refused .illegalAccess) :=
  ⟨eq_next (by decide), ⟨⟨rfl, rfl⟩, eq_fault (by decide)⟩, ⟨⟨rfl, rfl⟩, eq_refused (by decide)⟩⟩
theorem witness_Polling :
    (atStart.busy = true ∨ atStart.done = true) ∧ step atStart = .next (running 0x20000000 8 0x20000004 4 0x0001F203) ∧
    ∀ b, atStart.nextTurn.1 ≠ .reset b := ⟨.inl rfl, eq_next (by decide), by decide⟩
/-- V1 after its first WORD step meets the invariant, and has a next step. -/
theorem witness_Inv : Inv (running 0x20000000 8 0x20000004 4 0x0001F203) ∧
    step (running 0x20000000 8 0x20000004 4 0x0001F203) = .next (running 0x20000000 8 0x20000008 0 0xF4F7E8FA) :=
  ⟨{ flags_exclusive := by decide
     mem_wf := by decide
     cache_sorted := by decide
     cache_coherent := fun _ => rfl
     pending_holdable := fun _ h => by cases h
     stuck_pending := fun h => by cases h
     fresh_result := fun h => by cases h
     buffer_fits := fun _ => .inr (by decide)
     no_side_effect := fun _ => by decide }, eq_next (by decide)⟩
/-- RD STATUS while busy, in a state that meets the invariant. -/
theorem witness_StatusRead : Inv (running 0x20000000 8 0x20000004 4 0x0001F203) := witness_Inv.1
/-- V2 after its first byte: one byte read, 00. -/
theorem witness_Summing : Summing 0x20000001 8 [0x00] (running 0x20000001 8 0x20000002 7 0) :=
  { busy := rfl, fits := by decide, rem_le := by decide, ptr_eq := by decide, swap_eq := by decide, count := by decide,
    residue := by decide, zero_iff := by decide }
theorem witness_ResultIsChecksum_start : finished.busy = false ∧ exec .start finished =
    .next { atStart with res := 0xDDF2 } := ⟨rfl, eq_next (by decide)⟩
theorem witness_ResultIsChecksum_step :
    Summing 0x20000001 8 [0x00] (running 0x20000001 8 0x20000002 7 0) ∧
    step (running 0x20000001 8 0x20000002 7 0) = .next (running 0x20000001 8 0x20000003 6 0x100) ∧
    (running 0x20000001 8 0x20000003 6 0x100).busy = true := ⟨witness_Summing, eq_next (by decide), rfl⟩
/-- V1 at FINISH, all eight bytes read. -/
theorem witness_ResultIsChecksum_finish :
    Summing 0x20000000 8 [0x00, 0x01, 0xF2, 0x03, 0xF4, 0xF5, 0xF6, 0xF7] atFinish ∧
    step atFinish = .next { atFinish with res := 0xDDF2, busy := false, done := true } :=
  ⟨{ busy := rfl, fits := by decide, rem_le := by decide, ptr_eq := by decide, swap_eq := by decide, count := by decide,
     residue := by decide, zero_iff := by decide }, eq_next (by decide)⟩
theorem witness_Alone : Alone 0x20000000 8 atStart ∧ (0x20000000 : Word).toNat + (8 : Word).toNat ≤ 2 ^ 32 ∧
    ∀ k < (8 : Word).toNat, readable atStart.platform ((0x20000000 : Word).toNat + k) = true :=
  ⟨⟨⟨rfl, rfl⟩, rfl, rfl, by decide⟩, by decide, by decide⟩
/-- V22: a buffer that ends exactly at 2^32. -/
theorem witness_Alone_top : Alone 0xFFFFFFFC 4 (running 0xFFFFFFFC 4 0xFFFFFFFC 4 0) ∧
    (0xFFFFFFFC : Word).toNat + (4 : Word).toNat ≤ 2 ^ 32 := ⟨⟨⟨rfl, rfl⟩, rfl, rfl, by decide⟩, by decide⟩
/-- V80: one byte of the buffer is not readable. -/
theorem witness_Alone_unreadable :
    let s := { running 0x20000001 8 0x20000001 8 0 with
      platform := platformOf { base := 0x20000000, size := 5, kind := .memory } }
    Alone 0x20000001 8 s ∧ (0x20000001 : Word).toNat + (8 : Word).toNat ≤ 2 ^ 32 ∧
    ∃ k < (8 : Word).toNat, readable s.platform ((0x20000001 : Word).toNat + k) = false :=
  ⟨⟨⟨rfl, rfl⟩, rfl, rfl, by decide⟩, by decide, by decide⟩
/-- V62: a RD RESULT held while V1 runs. -/
theorem witness_Hold :
    let s := { running 0x20000000 8 0x20000004 4 0x0001F203 with pending := some (encode .rdResult) }
    s.running ∧ s.script = [] ∧ Latched 0x20000000 8 s ∧
    ∀ k < (8 : Word).toNat, readable s.platform ((0x20000000 : Word).toNat + k) = true :=
  ⟨⟨rfl, rfl⟩, rfl,
    { busy := rfl, fits := by decide, rem_le := by decide, ptr_eq := by decide, swap_eq := by decide }, by decide⟩
/-- P1. -/
theorem witness_CsumCall : IdleWith (csum 0x20000000 8) (under (staged 0x20000000 8) [] (csum 0x20000000 8)) ∧
    CallerContract (staged 0x20000000 8).platform 0x20000000 8 :=
  ⟨⟨⟨rfl, rfl⟩, rfl, rfl, rfl, rfl, rfl⟩, by decide⟩
/-- W9: the empty buffer, at an odd address. -/
theorem witness_CsumCall_empty : IdleWith (csum 0x20000003 0) (under finished [] (csum 0x20000003 0)) ∧
    CallerContract finished.platform 0x20000003 0 := ⟨⟨⟨rfl, rfl⟩, rfl, rfl, rfl, rfl, rfl⟩, by decide⟩
/-- W4: the same bytes at an aligned and at an odd address. -/
theorem witness_BytesAlone :
    let s := under (staged 0x20000000 8) [] (csum 0x20000000 8)
    let s' := under (staged 0x20000001 8) [] (csum 0x20000001 8)
    IdleWith (csum 0x20000000 8) s ∧ IdleWith (csum 0x20000001 8) s' ∧ CallerContract s.platform 0x20000000 8 ∧
    CallerContract s'.platform 0x20000001 8 ∧
    s.mem.readBytes (0x20000000 : Word).toNat (8 : Word).toNat =
      s'.mem.readBytes (0x20000001 : Word).toNat (8 : Word).toNat :=
  ⟨⟨⟨rfl, rfl⟩, rfl, rfl, rfl, rfl, rfl⟩, ⟨⟨rfl, rfl⟩, rfl, rfl, rfl, rfl, rfl⟩, by decide, by decide, by decide⟩

/-! ### The host's way in: withFetchWord at reset -/

theorem test_withFetchWord : next? (step (State.reset.withFetchWord 16 0x400C)) =
    some { State.reset with reads := [0] } := by decide
theorem test_withFetchWord_cmd : (next? (step (State.reset.withFetchWord 32 1))).map (·.busy) = some true := by decide

end Sys2Proof.Tests
end

/-! PROOFS. The family of 10_state.md: the invariant that every step keeps, which steps write RES and the flags, and what
stays recorded. -/

namespace Sys2Proof.Machine

/-! ### Facts about the model's operations -/

/-- A BYTE step is enabled only where a byte is left to read (R181). -/
theorem one_le_rem_of_byte {e : Engine} (h : engineKind e = .byte) : 1 ≤ e.rem.toNat := by
  have hcases := engineKind_cases e
  simp only [h, reduceCtorEq, false_and, or_false, true_and] at hcases
  omega

/-- A WORD step is enabled only where four bytes are left to read (R181). -/
theorem four_le_rem_of_word {e : Engine} (h : engineKind e = .word) : 4 ≤ e.rem.toNat := by
  have hcases := engineKind_cases e
  simp only [h, reduceCtorEq, false_and, or_false, false_or, true_and] at hcases
  omega

/-- The transaction that `take` finds stands at the register interface, and only the queue gave it up. -/
theorem State.take_some {s v : State} {a : Access} (h : s.take = some (a, v)) :
    v = { s with pending := some a, queue := v.queue } := by
  rcases s.take_cases with ⟨c, hp, ht⟩ | ⟨c, rest, hp, _, ht⟩ | ⟨_, _, ht⟩
  · obtain ⟨rfl, rfl⟩ := Prod.mk.inj (Option.some.inj (ht.symm.trans h))
    rw [← hp]
  · obtain ⟨rfl, rfl⟩ := Prod.mk.inj (Option.some.inj (ht.symm.trans h))
    rfl
  · cases ht.symm.trans h

/-! ### What each update needs to keep the invariant

The invariant speaks of the flags, RES, the engine, memory, the host's cache and the register interface alone; an update
that leaves those as they were keeps it field by field. -/

/-- The state after reset meets the invariant, on every platform. -/
theorem Inv.resetOn (p : Platform) : Inv (State.resetOn p) where
  flags_exclusive := by simp
  mem_wf := Memory.reset_wf p
  cache_sorted := by simp [cellsSorted]
  cache_coherent := by simp
  pending_holdable := by simp
  stuck_pending := by simp
  fresh_result := by simp
  buffer_fits := by simp
  no_side_effect := by simp

theorem Inv.setScript {s : State} (h : Inv s) (rest : List Turn) : Inv (s.setScript rest) := { h with }

theorem Inv.enqueue {s : State} (h : Inv s) (a : Access) : Inv (s.enqueue a) := { h with }

theorem Inv.setAddr {s : State} (h : Inv s) (v : Word) : Inv (s.setAddr v) := { h with }

theorem Inv.setLen {s : State} (h : Inv s) (v : Word) : Inv (s.setLen v) := { h with }

theorem Inv.complete {s : State} (h : Inv s) : Inv s.complete :=
  { h with
    pending_holdable := by simp
    stuck_pending := by simp }

/-- A reply does more than a completion only to `reads`, which the invariant does not speak of. -/
theorem Inv.reply_of_complete {s : State} (h : Inv s.complete) (v : Word) : Inv (s.reply v) := { h with }

/-- A transaction that stands at the register interface of a host that is not stuck, and may be held there. -/
theorem Inv.of_complete {s : State} (h : Inv s.complete) (hstuck : s.hostStuck = false)
    (hp : ∀ a, s.pending = some a → holdable (decode a) = true) : Inv s :=
  { h with
    pending_holdable := hp
    stuck_pending := by simp [hstuck] }

theorem Inv.writeByte {s : State} (h : Inv s) (a : Word) (b : Byte) : Inv (s.writeByte a.toNat b) :=
  { h with mem_wf := Memory.write_wf h.mem_wf b a.isLt }

theorem Inv.setHostCache {s : State} (h : Inv s) {cells : List Host.Cell} (hsort : cellsSorted cells)
    (hcoh : s.platform.coherent = true → cells = []) : Inv (s.setHostCache cells) :=
  { h with
    cache_sorted := hsort
    cache_coherent := hcoh }

theorem Inv.flagsFinished {s : State} (h : Inv s) : Inv s.flagsFinished :=
  { h with
    flags_exclusive := by simp
    fresh_result := by simp
    buffer_fits := by simp
    no_side_effect := by simp }

theorem Inv.setRes_of_busy {s : State} (h : Inv s) (hb : s.busy = true) (v : Half) : Inv (s.setRes v) :=
  { h with fresh_result := by simp [hb] }

/-- START latches a buffer that fits and has no side effects (R157, R213). -/
theorem Inv.startAccepted {s : State} (h : Inv s) (hfit : bufferWraps s.addr s.len = false)
    (hse : sideEffectBufferAt s.platform s.addr.toNat s.len.toNat = false) : Inv s.startAccepted :=
  { h with
    flags_exclusive := by simp
    fresh_result := by simp
    buffer_fits := fun _ => by
      have hle := (bufferWraps_iff s.addr s.len).not.1 (by simp [hfit])
      exact .inr (Nat.le_of_not_lt hle)
    no_side_effect := fun _ k hk => by
      have hnone := (sideEffectBufferAt_iff s.platform s.addr.toNat s.len.toNat).not.1 (by simp [hse])
      simpa using fun hs => hnone ⟨k, hk, hs⟩ }

/-- A step that moves PTR and REM over n of the bytes still to be read leaves a suffix of them. -/
theorem Inv.advance {s : State} (h : Inv s) (hb : s.busy = true) (v : Word) {n : Word}
    (hn : n.toNat ≤ s.eng.rem.toNat) : Inv (s.setEng (s.eng.advance v n)) := by
  have hrem : (s.eng.rem - n).toNat = s.eng.rem.toNat - n.toNat := by bv_omega
  have hptr : s.eng.rem.toNat - n.toNat ≠ 0 → (s.eng.ptr + n).toNat = s.eng.ptr.toNat + n.toNat := by
    have := h.buffer_fits hb
    bv_omega
  refine { h with buffer_fits := fun _ => ?_, no_side_effect := fun _ k hk => ?_ }
  · have := h.buffer_fits hb
    simp only [State.setEng_eng, Engine.advance_rem, Engine.advance_ptr, hrem]
    omega
  · simp only [State.setEng_eng, Engine.advance_rem, hrem] at hk
    simp only [State.setEng_eng, State.setEng_platform, Engine.advance_ptr, hptr (by omega), Nat.add_assoc]
    exact h.no_side_effect hb (n.toNat + k) (by omega)

/-! ### What each agent's turn keeps -/

/-- Reset leaves an idle block with RES = 0 and nothing at the register interface (R44, R240). -/
theorem Inv.resetTurn {s : State} (h : Inv s) (busPath : Bool) : Inv (resetTurn busPath s) where
  flags_exclusive := by simp [Machine.resetTurn]
  mem_wf := h.mem_wf
  cache_sorted := h.cache_sorted
  cache_coherent := h.cache_coherent
  pending_holdable := by simp [Machine.resetTurn]
  stuck_pending := by simp [Machine.resetTurn]
  fresh_result := by simp [Machine.resetTurn]
  buffer_fits := by simp [Machine.resetTurn]
  no_side_effect := by simp [Machine.resetTurn]

theorem Inv.issueTurn {s : State} (h : Inv s) (size : BitVec 2) (write : Bool) (hostAddr : Nat) (data : Word) :
    Inv (issueTurn size write hostAddr data s) := by
  unfold Machine.issueTurn
  split
  · exact h
  · split
    · exact h.enqueue _
    · exact h

/-- A store goes to memory on a coherent platform and to the host's cache on another (R74, R79). -/
theorem Inv.hostStoreTurn {s : State} (h : Inv s) (a : Word) (b : Byte) : Inv (hostStoreTurn a b s) := by
  unfold Machine.hostStoreTurn
  split
  · exact h
  · split
    · exact h.writeByte a b
    · rename_i hcoh
      exact h.setHostCache (cellsPut_sorted h.cache_sorted b a.isLt) (absurd · hcoh)

theorem Inv.hostCleanTurn {s : State} (h : Inv s) (a : Word) : Inv (hostCleanTurn a s) := by
  unfold Machine.hostCleanTurn
  split
  · rename_i b _
    refine (h.writeByte a b).setHostCache (cellsErase_sorted h.cache_sorted a.toNat) fun hcoh => ?_
    simp [h.cache_coherent hcoh, cellsErase]
  · exact h

theorem Inv.engineStep {s t : State} (h : Inv s) (hstep : engineStep s = .next t) : Inv t := by
  rcases engineStep_next hstep with ⟨_, rfl⟩ | ⟨hb, hk, _, rfl⟩ | ⟨hb, hk, _, rfl⟩ | ⟨_, _, rfl⟩ | ⟨hb, _, rfl⟩
  · exact h
  · exact h.advance hb _ (one_le_rem_of_byte hk)
  · exact h.advance hb _ (four_le_rem_of_word hk)
  · exact { h with }
  · exact (h.setRes_of_busy hb _).flagsFinished

/-- A transaction keeps the invariant of the state without it: it is held only where it may be held, and otherwise it
leaves the register interface (R166). -/
theorem Inv.exec {s t : State} {a : Access} (h : Inv s.complete) (hstuck : s.hostStuck = false)
    (hp : s.pending = some a) (hstep : exec (decode a) s = .next t) : Inv t := by
  rcases exec_next hstep with ⟨hh, _, rfl⟩ | ⟨v, _, rfl⟩ | ⟨v, _, rfl⟩ | ⟨v, rfl⟩ | rfl | ⟨_, _, hfit, hse, rfl⟩
  · refine h.of_complete hstuck fun c hc => ?_
    rwa [← Option.some.inj (hp.symm.trans hc)]
  · exact h.setAddr v
  · exact h.setLen v
  · exact h.reply_of_complete v
  · exact h
  · exact h.startAccepted hfit hse

/-- Taking a transaction keeps the invariant of the state without one. -/
theorem Inv.take {s v : State} {a : Access} (h : Inv s) (ht : s.take = some (a, v)) : Inv v.complete := by
  rw [State.take_some ht]
  exact { h.complete with }

/-- Settles O51: by the turn taken; each agent's turn keeps the invariant, and the host's turn keeps it because only a
holdable transaction is held. -/
theorem stepKeepsTheInvariant : Obligations.StepKeepsTheInvariant := by
  intro s t hs hstep
  obtain ⟨-, u, rfl, hturn⟩ := step_next hstep
  have hu := hs.setScript s.script.tail
  rcases hturn with ⟨_, ⟨rfl, _⟩ | ⟨a, v, hstuck, htake, hexec⟩⟩ | ⟨_, heng⟩ | ⟨b, _, rfl⟩ | ⟨z, w, p, d, _, rfl⟩ |
    ⟨a, b, _, rfl⟩ | ⟨a, b, _, rfl⟩ | ⟨a, _, rfl⟩
  · exact hu
  · have hv := State.take_some htake
    exact (hu.take htake).exec (by rw [hv]; exact hstuck) (by rw [hv]) hexec
  · exact hu.engineStep heng
  · exact hu.resetTurn b
  · exact hu.issueTurn z w p d
  · exact hu.writeByte a b
  · exact hu.hostStoreTurn a b
  · exact hu.hostCleanTurn a

/-! ### What a step can do to the block

A turn from outside the block that is no reset changes the queue, memory and the host's cache and nothing else; so the
flags, RES and what is recorded change only where a transaction is run, where the engine steps, or at reset. -/

theorem issueTurn_frame (size : BitVec 2) (write : Bool) (hostAddr : Nat) (data : Word) (s : State) :
    ∃ q, issueTurn size write hostAddr data s = { s with queue := q } := by
  unfold issueTurn
  split
  · exact ⟨s.queue, rfl⟩
  · split
    · exact ⟨_, rfl⟩
    · exact ⟨s.queue, rfl⟩

theorem hostStoreTurn_frame (a : Word) (b : Byte) (s : State) :
    ∃ m c, hostStoreTurn a b s = { s with mem := m, hostCache := c } := by
  unfold hostStoreTurn
  split
  · exact ⟨s.mem, s.hostCache, rfl⟩
  · split
    · exact ⟨_, s.hostCache, rfl⟩
    · exact ⟨s.mem, _, rfl⟩

theorem hostCleanTurn_frame (a : Word) (s : State) :
    ∃ m c, hostCleanTurn a s = { s with mem := m, hostCache := c } := by
  unfold hostCleanTurn
  split
  · exact ⟨_, _, rfl⟩
  · exact ⟨s.mem, s.hostCache, rfl⟩

/-- What is taken does not depend on the script. -/
theorem State.take_setScript (s : State) (rest : List Turn) :
    (s.setScript rest).take = s.take.map fun av => (av.1, av.2.setScript rest) := by
  rcases s.take_cases with ⟨a, hp, ht⟩ | ⟨a, q, hp, hq, ht⟩ | ⟨hp, hq, ht⟩
  · simp [State.take, hp]
  · simp [State.take, hp, hq, State.setScript, State.setFront]
  · simp [State.take, hp, hq]

/-- Everything a step can do to the block: a transaction is run, the engine steps, the block is reset, or only the
script, the queue, memory and the host's cache change. -/
theorem step_next_block {s t : State} (h : step s = .next t) :
    (s.nextTurn.1 = .host ∧ ∃ a q, ∃ v, s.take = some (a, v) ∧
      exec (decode a) { s with script := s.script.tail, pending := some a, queue := q } = .next t) ∨
    (s.nextTurn.1 = .engine ∧ engineStep (s.setScript s.script.tail) = .next t) ∨
    (∃ b, s.nextTurn.1 = .reset b ∧ t = resetTurn b (s.setScript s.script.tail)) ∨
    ∃ q m c, t = { s with script := s.script.tail, queue := q, mem := m, hostCache := c } := by
  obtain ⟨-, u, rfl, hturn⟩ := step_next h
  rcases hturn with ⟨hn, ⟨rfl, _⟩ | ⟨a, v, _, htake, hexec⟩⟩ | ⟨hn, heng⟩ | ⟨b, hn, rfl⟩ | ⟨z, w, p, d, _, rfl⟩ |
    ⟨a, b, _, rfl⟩ | ⟨a, b, _, rfl⟩ | ⟨a, _, rfl⟩
  · exact .inr (.inr (.inr ⟨s.queue, s.mem, s.hostCache, rfl⟩))
  · rw [State.take_some htake] at hexec
    rw [State.take_setScript, Option.map_eq_some_iff] at htake
    obtain ⟨⟨c, v'⟩, hv', hcv⟩ := htake
    obtain ⟨rfl, -⟩ := Prod.mk.inj hcv
    exact .inl ⟨hn, c, v.queue, v', hv', hexec⟩
  · exact .inr (.inl ⟨hn, heng⟩)
  · exact .inr (.inr (.inl ⟨b, hn, rfl⟩))
  · obtain ⟨q, hq⟩ := issueTurn_frame z w p d (s.setScript s.script.tail)
    exact .inr (.inr (.inr ⟨q, s.mem, s.hostCache, hq⟩))
  · exact .inr (.inr (.inr ⟨s.queue, _, s.hostCache, rfl⟩))
  · obtain ⟨m, c, hmc⟩ := hostStoreTurn_frame a b (s.setScript s.script.tail)
    exact .inr (.inr (.inr ⟨s.queue, m, c, hmc⟩))
  · obtain ⟨m, c, hmc⟩ := hostCleanTurn_frame a (s.setScript s.script.tail)
    exact .inr (.inr (.inr ⟨s.queue, m, c, hmc⟩))

/-! ### What a transaction and an engine step write -/

/-- No transaction writes RES (R157, R163) or clears what is recorded (R43). -/
theorem exec_next_res_records {i : Instr} {s t : State} (h : exec i s = .next t) :
    t.res = s.res ∧ t.faults = s.faults ∧ t.refusalMark = s.refusalMark := by
  rcases exec_next h with ⟨_, _, rfl⟩ | ⟨_, _, rfl⟩ | ⟨_, _, rfl⟩ | ⟨_, rfl⟩ | rfl | ⟨_, _, _, _, rfl⟩ <;>
    exact ⟨rfl, rfl, rfl⟩

/-- START acceptance is the only transaction that writes a flag (R40). -/
theorem exec_next_flags {i : Instr} {s t : State} (h : exec i s = .next t) :
    (t.busy = s.busy ∧ t.done = s.done) ∨
      (isStart i = true ∧ s.busy = false ∧ t.busy = true ∧ t.done = false) := by
  rcases exec_next h with ⟨_, _, rfl⟩ | ⟨_, _, rfl⟩ | ⟨_, _, rfl⟩ | ⟨_, rfl⟩ | rfl | ⟨hi, hb, _, _, rfl⟩
  case inr.inr.inr.inr.inr => exact .inr ⟨hi, hb, rfl, rfl⟩
  all_goals exact .inl ⟨rfl, rfl⟩

/-- FINISH is the only engine step that writes RES or a flag (R40, R185). -/
theorem engineStep_next_res_flags {s t : State} (h : engineStep s = .next t) :
    (t.res = s.res ∧ t.busy = s.busy ∧ t.done = s.done) ∨
      (s.busy = true ∧ engineKind s.eng = .finish ∧ t.busy = false ∧ t.done = true) := by
  rcases engineStep_next h with ⟨_, rfl⟩ | ⟨_, _, _, rfl⟩ | ⟨_, _, _, rfl⟩ | ⟨_, _, rfl⟩ | ⟨hb, hk, rfl⟩
  case inr.inr.inr.inr => exact .inr ⟨hb, hk, rfl, rfl⟩
  all_goals exact .inl ⟨rfl, rfl, rfl⟩

theorem engineStep_next_records {s t : State} (h : engineStep s = .next t) :
    t.faults = s.faults ∧ t.refusalMark = s.refusalMark := by
  rcases engineStep_next h with ⟨_, rfl⟩ | ⟨_, _, _, rfl⟩ | ⟨_, _, _, rfl⟩ | ⟨_, _, rfl⟩ | ⟨_, _, rfl⟩ <;>
    exact ⟨rfl, rfl⟩

/-- Settles O46: no transaction writes RES, and of the engine's steps only FINISH does. -/
theorem onlyFinishAndResetWriteResult : Obligations.OnlyFinishAndResetWriteResult := by
  intro s t hstep hres
  rcases step_next_block hstep with ⟨_, a, q, v, _, hexec⟩ | ⟨hn, heng⟩ | ⟨b, hn, _⟩ | ⟨q, m, c, rfl⟩
  · exact absurd (exec_next_res_records hexec).1 hres
  · rcases engineStep_next_res_flags heng with ⟨hsame, _⟩ | ⟨hb, hk, _⟩
    · exact absurd hsame hres
    · exact .inl ⟨hn, hb, hk⟩
  · exact .inr ⟨b, hn⟩
  · exact absurd rfl hres

/-- Settles O47: START acceptance is the only transaction, and FINISH the only engine step, that writes a flag. -/
theorem onlyStartFinishAndResetWriteFlags : Obligations.OnlyStartFinishAndResetWriteFlags := by
  intro s t hstep hflags
  rcases step_next_block hstep with ⟨hn, a, q, v, htake, hexec⟩ | ⟨hn, heng⟩ | ⟨b, hn, rfl⟩ | ⟨q, m, c, rfl⟩
  · rcases exec_next_flags hexec with hsame | ⟨hi, hb, htb, htd⟩
    · exact absurd hsame hflags
    · exact .inl ⟨hn, hb, htb, htd, a, v, htake, hi⟩
  · rcases engineStep_next_res_flags heng with ⟨_, hsame⟩ | ⟨hb, hk, htb, htd⟩
    · exact absurd hsame hflags
    · exact .inr (.inl ⟨hn, hk, hb, htb, htd⟩)
  · exact .inr (.inr ⟨b, hn, rfl, rfl⟩)
  · exact absurd ⟨rfl, rfl⟩ hflags

/-! ### What is recorded -/

/-- Every step with a next state leaves the recorded faults and the refusal mark as they were (R43). -/
theorem step_next_records {s t : State} (h : step s = .next t) :
    t.faults = s.faults ∧ t.refusalMark = s.refusalMark := by
  rcases step_next_block h with ⟨_, a, q, v, _, hexec⟩ | ⟨_, heng⟩ | ⟨b, _, rfl⟩ | ⟨q, m, c, rfl⟩
  · exact (exec_next_res_records hexec).2
  · simpa using engineStep_next_records heng
  · exact ⟨rfl, rfl⟩
  · exact ⟨rfl, rfl⟩

/-- A stopped state stops again with the outcome recorded (R211, R213). -/
theorem step_of_stopped {s : State} {o : Host.Outcome State Fault Refusal} (h : s.stopped = some o) : step s = o := by
  simp only [step, State.move, h, Move.outcome]

/-- A state that records what its own step comes to is the end of every run from it. -/
theorem runRecorded_of_record_self {s : State} (h : s.record (step s) = s) (k : Nat) : runRecorded k s = s := by
  induction k with
  | zero => rfl
  | succ k ih => rw [runRecorded, h, ih]

theorem record_step_of_faults_singleton {s : State} {f : Fault} (h : s.faults = [f]) : s.record (step s) = s := by
  have hstop : s.stopped = some (.fault f) := by simp [State.stopped, h]
  simp [step_of_stopped hstop, State.record, h]

theorem record_step_of_refusalMark {s : State} {r : Refusal} (hf : s.faults = []) (h : s.refusalMark = some r) :
    s.record (step s) = s := by
  have hstop : s.stopped = some (.refused r) := by simp [State.stopped, hf, h]
  rw [step_of_stopped hstop, State.record, ← h]

/-- Settles O48: a step clears no record, and the state that records a stop is the end of its run. -/
theorem recordedFaultsStay : Obligations.RecordedFaultsStay := by
  refine ⟨fun s t => step_next_records, fun s f hrun hstep k => ?_, fun s r hrun hstep k => ?_⟩
  · obtain ⟨hf, -⟩ := hrun
    have hrec : s.record (.fault f) = { s with faults := [f] } := by simp [State.record, hf]
    rw [runRecorded, hstep, hrec]
    exact runRecorded_of_record_self (record_step_of_faults_singleton rfl) k
  · obtain ⟨hf, -⟩ := hrun
    have hrec : s.record (.refused r) = { s with refusalMark := some r } := rfl
    rw [runRecorded, hstep, hrec]
    exact runRecorded_of_record_self (record_step_of_refusalMark (s := { s with refusalMark := some r }) hf rfl) k

/-! ### The state after reset -/

/-- Settles O43: the rows of R44, field by field. -/
theorem resetStateValues : Obligations.ResetStateValues :=
  fun p => ⟨State.resetOn_addr p, State.resetOn_len p, State.resetOn_busy p, State.resetOn_done p, State.resetOn_res p,
    State.resetOn_pending p⟩

/-- Settles O50: nothing is recorded, waits or runs in the reset state. -/
theorem resetMeetsTheInvariant : Obligations.ResetMeetsTheInvariant := Inv.resetOn

end Sys2Proof.Machine

/-! PROOFS. The family of 20_memory.md: which bus accesses reach the block, what memory holds after a write, when a host
store is visible at the master port, and who writes memory. -/

namespace Sys2Proof.Machine

/-! ### The turn at the head of the script -/

/-- A running state with a script comes to what its first turn comes to. -/
theorem step_of_script {s : State} {turn : Turn} {rest : List Turn} (hrun : s.running)
    (hs : s.script = turn :: rest) : step s = (turnMove turn (s.setScript rest)).outcome := by
  rw [step_of_running hrun, State.nextTurn_cons hs]

/-! ### The register window (R60, R91) -/

theorem windowAccess_offset (p : Platform) (size : BitVec 2) (write : Bool) (off : BitVec 12) (data : Word) :
    windowAccess p size write (p.csumBase + off.toNat) data = some (.reg (makeDesc size write off) data) := by
  have hoff := off.isLt
  have hin : p.csumBase ≤ p.csumBase + off.toNat ∧ p.csumBase + off.toNat < p.csumBase + Config.windowBytes := by
    unfold Config.windowBytes
    omega
  rw [windowAccess, if_pos hin, Nat.add_sub_cancel_left, BitVec.ofNat_toNat, BitVec.setWidth_eq]

theorem windowAccess_outside {p : Platform} {hostAddr : Nat}
    (h : hostAddr < p.csumBase ∨ p.csumBase + Config.windowBytes ≤ hostAddr) (size : BitVec 2) (write : Bool)
    (data : Word) : windowAccess p size write hostAddr data = none :=
  if_neg (by omega)

/-- Inside the window a bus access joins the queue. -/
theorem step_issue_inside {s : State} {rest : List Turn} {size : BitVec 2} {write : Bool} {hostAddr : Nat}
    {data : Word} {a : Access} (hrun : s.running) (hstuck : s.hostStuck = false)
    (hs : s.script = .issue size write hostAddr data :: rest)
    (ha : windowAccess s.platform size write hostAddr data = some a) :
    step s = .next ((s.setScript rest).enqueue a) := by
  rw [step_of_script hrun hs]
  simp [turnMove, Move.outcome, issueTurn, hstuck, ha]

/-- Outside the window a bus access does nothing. -/
theorem step_issue_outside {s : State} {rest : List Turn} {size : BitVec 2} {write : Bool} {hostAddr : Nat}
    {data : Word} (hrun : s.running) (hs : s.script = .issue size write hostAddr data :: rest)
    (ha : windowAccess s.platform size write hostAddr data = none) : step s = .next (s.setScript rest) := by
  rw [step_of_script hrun hs]
  simp [turnMove, Move.outcome, issueTurn, ha]

/-- Settles O9: the window's accesses are those at CSUM_BASE plus a 12-bit offset, and the descriptor made of the fields
reads back as those fields. -/
theorem windowTransactionsJoinTheQueue : Obligations.WindowTransactionsJoinTheQueue := by
  intro s rest size write hostAddr data hrun hstuck hs
  constructor
  · rintro off rfl
    exact ⟨makeDesc size write off, step_issue_inside hrun hstuck hs (windowAccess_offset ..), descSize_makeDesc ..,
      descWrite_makeDesc .., descOffset_makeDesc ..⟩
  · intro hout
    exact step_issue_outside hrun hs (windowAccess_outside hout ..)

/-! ### The canonical form of memory -/

/-- In a list of rising addresses the byte found at an address is the one listed there. -/
theorem cellsGet_eq_some_iff {cells : List Host.Cell} (h : cells.Pairwise (fun x y => x.1 < y.1)) (a : Nat)
    (b : Byte) : cellsGet cells a = some b ↔ (a, b) ∈ cells := by
  refine ⟨cellsGet_mem cells, fun hmem => ?_⟩
  induction cells with
  | nil => cases hmem
  | cons x rest ih =>
    obtain ⟨k, v⟩ := x
    obtain ⟨hlt, hrest⟩ := List.pairwise_cons.1 h
    rcases List.mem_cons.1 hmem with heq | hin
    · obtain ⟨rfl, rfl⟩ := Prod.mk.inj heq
      simp [cellsGet]
    · have hne : a ≠ k := (hlt _ hin).ne'
      rw [cellsGet, if_neg hne, ih hrest hin]

/-- A canonical memory lists exactly the bytes that do not read as an unlisted one, so its contents fix it. -/
theorem Memory.mem_iff_read {m : Memory} (h : Memory.wf m) (a : Nat) (b : Byte) :
    (a, b) ∈ m ↔ b ≠ Memory.unlisted ∧ m.read a = b := by
  obtain ⟨⟨hpair, -⟩, hne⟩ := h
  rw [← cellsGet_eq_some_iff hpair, Memory.read]
  cases hget : cellsGet m a with
  | none => exact iff_of_false (by simp) fun ⟨hb, hu⟩ => hb hu.symm
  | some v =>
    have hv : v ≠ Memory.unlisted := hne _ (cellsGet_mem m hget)
    simp only [Option.some.injEq, Option.getD_some, iff_and_self]
    rintro rfl
    exact hv

/-- Equal contents are equal lists: both list the same cells, in the same order (log entry 6). -/
theorem Memory.ext_of_wf {m m' : Memory} (h : Memory.wf m) (h' : Memory.wf m') (heq : ∀ a, m.read a = m'.read a) :
    m = m' :=
  List.Pairwise.eq_of_mem_iff (r := InvImage (· < ·) Prod.fst) h.1.1 h'.1.1 fun (a, b) => by
    rw [Memory.mem_iff_read h, Memory.mem_iff_read h', heq]

/-- Settles O40: a read after a write at the turn's address and at every other one, and contents fix a canonical
memory. -/
theorem memoryHoldsWhatWasLastWritten : Obligations.MemoryHoldsWhatWasLastWritten := by
  refine ⟨fun s rest a b hrun hs => ?_, fun m m' => Memory.ext_of_wf⟩
  exact ⟨s.mem.write a.toNat b, step_of_script hrun hs, Memory.read_write_same .., fun c => Memory.read_write_other _ b⟩

/-! ### Host stores and cleans (R74, R79) -/

theorem step_hostStore_coherent {s : State} {rest : List Turn} {a : Word} {b : Byte} (hrun : s.running)
    (hstuck : s.hostStuck = false) (hcoh : s.platform.coherent = true) (hs : s.script = .hostStore a b :: rest) :
    step s = .next ((s.setScript rest).writeByte a.toNat b) := by
  rw [step_of_script hrun hs]
  simp [turnMove, Move.outcome, hostStoreTurn, hstuck, hcoh]

theorem step_hostStore_incoherent {s : State} {rest : List Turn} {a : Word} {b : Byte} (hrun : s.running)
    (hstuck : s.hostStuck = false) (hcoh : s.platform.coherent = false) (hs : s.script = .hostStore a b :: rest) :
    step s = .next ((s.setScript rest).setHostCache (cellsPut s.hostCache a.toNat b)) := by
  rw [step_of_script hrun hs]
  simp [turnMove, Move.outcome, hostStoreTurn, hstuck, hcoh]

/-- A clean moves the byte it finds in the host's cache to memory. -/
theorem step_hostClean_of_cached {s : State} {rest : List Turn} {a : Word} {b : Byte} (hrun : s.running)
    (hs : s.script = .hostClean a :: rest) (hget : cellsGet s.hostCache a.toNat = some b) :
    step s = .next (((s.setScript rest).writeByte a.toNat b).setHostCache (cellsErase s.hostCache a.toNat)) := by
  rw [step_of_script hrun hs]
  simp [turnMove, Move.outcome, hostCleanTurn, hget]

/-- Settles O41: a coherent store writes the byte at once; another waits in the host's cache, where the clean finds it
and then writes it. -/
theorem hostStoresBecomeVisible : Obligations.HostStoresBecomeVisible := by
  intro s rest a b hrun hstuck hs
  cases hcoh : s.platform.coherent with
  | true =>
    refine ⟨_, step_hostStore_coherent hrun hstuck hcoh hs, rfl, fun _ => ⟨rfl, ?_, ?_⟩, Bool.noConfusion⟩
    · exact Memory.read_write_same ..
    · exact fun c => Memory.read_write_other _ b
  | false =>
    refine ⟨_, step_hostStore_incoherent hrun hstuck hcoh hs, rfl, Bool.noConfusion, fun _ => ⟨rfl, ?_⟩⟩
    rintro rest' rfl
    refine ⟨_, step_hostClean_of_cached hrun rfl (cellsGet_put_same s.hostCache a.toNat b), rfl, ?_, ?_⟩
    · exact Memory.read_write_same ..
    · exact fun c => Memory.read_write_other _ b

/-! ### Who writes memory (R78) -/

/-- No transaction writes memory. -/
theorem exec_next_mem {i : Instr} {s t : State} (h : exec i s = .next t) : t.mem = s.mem := by
  rcases exec_next h with ⟨_, _, rfl⟩ | ⟨_, _, rfl⟩ | ⟨_, _, rfl⟩ | ⟨_, rfl⟩ | rfl | ⟨_, _, _, _, rfl⟩ <;> rfl

/-- The engine only reads memory. -/
theorem engineStep_next_mem {s t : State} (h : engineStep s = .next t) : t.mem = s.mem := by
  rcases engineStep_next h with ⟨_, rfl⟩ | ⟨_, _, _, rfl⟩ | ⟨_, _, _, rfl⟩ | ⟨_, _, rfl⟩ | ⟨_, _, rfl⟩ <;> rfl

/-- Settles O42: by the turn taken; no transaction, engine step, reset or issued access writes memory. -/
theorem blockNeverWritesMemory : Obligations.BlockNeverWritesMemory := by
  intro s t hstep
  obtain ⟨-, u, rfl, hturn⟩ := step_next hstep
  rcases hturn with ⟨_, ⟨rfl, _⟩ | ⟨a, v, _, htake, hexec⟩⟩ | ⟨_, heng⟩ | ⟨b, _, rfl⟩ | ⟨z, w, p, d, _, rfl⟩ |
    ⟨a, b, hn, _⟩ | ⟨a, b, hn, _⟩ | ⟨a, hn, _⟩
  · exact .inl rfl
  · rw [exec_next_mem hexec, State.take_some htake]
    exact .inl rfl
  · rw [engineStep_next_mem heng]
    exact .inl rfl
  · exact .inl rfl
  · obtain ⟨q, hq⟩ := issueTurn_frame z w p d (s.setScript s.script.tail)
    rw [hq]
    exact .inl rfl
  · exact .inr (.inl ⟨a, b, hn⟩)
  · exact .inr (.inr (.inl ⟨a, b, hn⟩))
  · exact .inr (.inr (.inr ⟨a, hn⟩))

end Sys2Proof.Machine

/-! PROOFS. The family of 30_encoding.md: decoding and encoding, the opcode map's rows, and the call CSUM. -/

namespace Sys2Proof

/-! ### Reading back an encoding -/

/-- A well-formed instruction is read back from its transaction, row by row. -/
theorem decode_encode : ∀ i : Instr, i.wellFormed = true → decode (encode i) = i
  | .rdAddr => Laws.RoundTrip.rdAddr
  | .wrAddr data => Laws.RoundTrip.wrAddr data
  | .rdLen => Laws.RoundTrip.rdLen
  | .wrLen data => Laws.RoundTrip.wrLen data
  | .rdCtrl => Laws.RoundTrip.rdCtrl
  | .wrCtrl data => Laws.RoundTrip.wrCtrl data
  | .rdStatus => Laws.RoundTrip.rdStatus
  | .wrStatus data => Laws.RoundTrip.wrStatus data
  | .rdResult => Laws.RoundTrip.rdResult
  | .wrResult data => Laws.RoundTrip.wrResult data
  | .rsvdIndex5 dir => Laws.RoundTrip.rsvdIndex5 dir
  | .rsvdIndex6to7 index dir => Laws.RoundTrip.rsvdIndex6to7 index dir
  | .rsvdIndex8to15 index dir => Laws.RoundTrip.rsvdIndex8to15 index dir
  | .rsvdIndex16to31 index dir => Laws.RoundTrip.rsvdIndex16to31 index dir
  | .rsvdIndex32to63 index dir => Laws.RoundTrip.rsvdIndex32to63 index dir
  | .rsvdIndex64to127 index dir => Laws.RoundTrip.rsvdIndex64to127 index dir
  | .rsvdIndex128to255 index dir => Laws.RoundTrip.rsvdIndex128to255 index dir
  | .rsvdIndex256to511 index dir => Laws.RoundTrip.rsvdIndex256to511 index dir
  | .rsvdIndex512to1023 index dir => Laws.RoundTrip.rsvdIndex512to1023 index dir
  | .refusedSize0 offset dir => Laws.RoundTrip.refusedSize0 offset dir
  | .refusedSize1 offset dir => Laws.RoundTrip.refusedSize1 offset dir
  | .refusedSize3 offset dir => Laws.RoundTrip.refusedSize3 offset dir
  | .refusedOffsetOdd offset dir => Laws.RoundTrip.refusedOffsetOdd offset dir
  | .refusedOffsetTwo offset dir => Laws.RoundTrip.refusedOffsetTwo offset dir
  | .nop => Laws.RoundTrip.nop
  | .start => Laws.RoundTrip.start
  | .cmdRsvd2to3 op => Laws.RoundTrip.cmdRsvd2to3 op
  | .cmdRsvd4to7 op => Laws.RoundTrip.cmdRsvd4to7 op
  | .cmdRsvd8to15 op => Laws.RoundTrip.cmdRsvd8to15 op

/-! ### Transactions as one number (log entry 13) -/

/-- 16 bits below 2^15 are a descriptor. -/
theorem parseWord_desc (d : BitVec 15) : parseWord 16 d.toNat = .ok (.reg d 0) := by
  simp [parseWord, d.isLt]

/-- 48 bits are a descriptor with the DATA above it. -/
theorem parseWord_descData (d : BitVec 15) (data : Word) :
    parseWord 48 (d.toNat + data.toNat * 2 ^ 16) = .ok (.reg d data) := by
  have hd := d.isLt
  have hdata := data.isLt
  have hlow : (d.toNat + data.toNat * 2 ^ 16) % 2 ^ 16 = d.toNat := by omega
  have hhigh : (d.toNat + data.toNat * 2 ^ 16) / 2 ^ 16 = data.toNat := by omega
  unfold parseWord
  rw [if_neg (by decide), if_pos rfl, hlow, hhigh, if_pos (by omega), BitVec.ofNat_toNat, BitVec.setWidth_eq,
    BitVec.ofNat_toNat, BitVec.setWidth_eq]

/-- 32 bits are a CMD word. -/
theorem parseWord_cmd (w : Word) : parseWord 32 w.toNat = .ok (.cmd w) := by
  simp [parseWord, w.isLt]

/-- A read's DATA is ignored (R91). -/
theorem decode_read_data {d : BitVec 15} (h : descWrite d = false) (data data' : Word) :
    decode (.reg d data) = decode (.reg d data') := by
  simp [decode, decodeReg, descDir, h]

theorem decodeTableWord_of_parse {nbits w : Nat} {a : Access} (h : parseWord nbits w = .ok a) :
    decodeTableWord nbits w = some (decode a) := by
  simp [decodeTableWord, accessOfWord, h]

/-- The number of a transaction is decoded as the transaction is. -/
theorem decodeTableWord_wordOfAccess (a : Access) :
    decodeTableWord (wordOfAccess a).1 (wordOfAccess a).2 = some (decode a) := by
  cases a with
  | reg d data =>
    cases hw : descWrite d with
    | true =>
      rw [wordOfAccess, hw]
      exact decodeTableWord_of_parse (parseWord_descData d data)
    | false =>
      rw [wordOfAccess, hw, decode_read_data hw data 0]
      exact decodeTableWord_of_parse (parseWord_desc d)
  | cmd w => exact decodeTableWord_of_parse (parseWord_cmd w)

/-- Settles O4: the transaction is read back row by row, and its number is decoded as the transaction is. -/
theorem decodeInvertsEncode : Obligations.DecodeInvertsEncode := by
  intro i hi
  have hback := decode_encode i hi
  exact ⟨hback, by rw [decodeTableWord_wordOfAccess, hback]⟩

/-- Settles O3: each word evaluated by the decoder. -/
theorem knownWordsDecode : Obligations.KnownWordsDecode := by
  unfold Obligations.KnownWordsDecode
  decide

/-! ### What the decoder answers is well-formed and encodes what was decoded -/

/-- The register index and the direction are those of the instruction they select. -/
theorem decodeIndex_sound (index : BitVec 10) (dir : Dir) :
    (decodeIndex index dir).wellFormed = true ∧ encode (decodeIndex index dir) = encodeIndex index dir := by
  have hlt := index.isLt
  by_cases h : 6 ≤ index.toNat
  · rw [decodeIndex_reserved h]
    split_ifs <;> exact ⟨indexIn_iff.2 ⟨by omega, by omega⟩, rfl⟩
  · obtain ⟨n, hn, rfl⟩ : ∃ n < 6, index = BitVec.ofNat 10 n := ⟨index.toNat, by omega, by simp⟩
    interval_cases n <;> cases dir <;> exact ⟨rfl, rfl⟩

/-- The four values of SIZE (R91). -/
theorem size_cases : ∀ z : BitVec 2, z = 0 ∨ z = 1 ∨ z = 3 ∨ z = 2 := by decide

theorem decodeFields_odd {o : BitVec 12} (h0 : o.getLsbD 0 = true) (dir : Dir) :
    decodeFields 2 o dir = .refusedOffsetOdd o dir := if_pos h0

theorem decodeFields_two {o : BitVec 12} (h0 : o.getLsbD 0 = false) (h1 : o.getLsbD 1 = true) (dir : Dir) :
    decodeFields 2 o dir = .refusedOffsetTwo o dir :=
  (if_neg (Bool.eq_false_iff.1 h0)).trans (if_pos h1)

theorem decodeFields_aligned {o : BitVec 12} (h0 : o.getLsbD 0 = false) (h1 : o.getLsbD 1 = false) (dir : Dir) :
    decodeFields 2 o dir = decodeIndex (offsetIndex o) dir :=
  (if_neg (Bool.eq_false_iff.1 h0)).trans (if_neg (Bool.eq_false_iff.1 h1))

/-- OFFSET[1:0] = 0, as the decoder asks it bit by bit (R92). -/
theorem offset_mod_four_iff (o : BitVec 12) : o.toNat % 4 = 0 ↔ o.getLsbD 0 = false ∧ o.getLsbD 1 = false := by
  simp only [BitVec.getLsbD, Nat.testBit_eq_decide_div_mod_eq, decide_eq_false_iff_not]
  omega

theorem offsetIndex_toNat (o : BitVec 12) : (offsetIndex o).toNat = o.toNat / 4 := by
  have ho := o.isLt
  rw [offsetIndex, BitVec.extractLsb'_toNat, Nat.shiftRight_eq_div_pow]
  omega

/-- A 4-aligned offset is its register index with two zero bits below (R92). -/
theorem offsetIndex_append_zero {o : BitVec 12} (h : o.toNat % 4 = 0) : offsetIndex o ++ (0 : BitVec 2) = o := by
  apply BitVec.eq_of_toNat_eq
  rw [append_toNat, offsetIndex_toNat]
  simp only [BitVec.ofNat_eq_ofNat, BitVec.toNat_ofNat]
  omega

/-- SIZE and OFFSET, too, are those of the instruction they select. -/
theorem decodeFields_sound (z : BitVec 2) (o : BitVec 12) (dir : Dir) :
    (decodeFields z o dir).wellFormed = true ∧ encode (decodeFields z o dir) = encodeAt z o dir := by
  rcases size_cases z with rfl | rfl | rfl | rfl
  · exact ⟨rfl, rfl⟩
  · exact ⟨rfl, rfl⟩
  · exact ⟨rfl, rfl⟩
  · cases h0 : o.getLsbD 0 with
    | true =>
      rw [decodeFields_odd h0]
      exact ⟨h0, rfl⟩
    | false =>
      cases h1 : o.getLsbD 1 with
      | true =>
        rw [decodeFields_two h0 h1]
        exact ⟨by rw [Instr.wellFormed, h0, h1]; rfl, rfl⟩
      | false =>
        have hindex := decodeIndex_sound (offsetIndex o) dir
        rwa [encodeIndex, offsetIndex_append_zero ((offset_mod_four_iff o).2 ⟨h0, h1⟩),
          ← decodeFields_aligned h0 h1] at hindex

theorem decodeOp_wellFormed : ∀ op : BitVec 4, (decodeOp op).wellFormed = true := by decide

/-- Settles O5: the decoder's branches are the operand ranges of the rows. -/
theorem decodeIsWellFormed : Obligations.DecodeIsWellFormed := by
  rintro (⟨d, data⟩ | w)
  · exact (decodeFields_sound (descSize d) (descOffset d) (descDir d data)).1
  · exact decodeOp_wellFormed (cmdOp w)

/-! ### The rows of the opcode map (R95, R96) -/

/-- No word is of both rows: they differ in a bit that both look at, or are of two formats. -/
abbrev OpcodeRow.Exclusive (r r' : OpcodeRow) : Prop :=
  r.format ≠ r'.format ∨ r.matchBits &&& r'.mask ≠ r'.matchBits &&& r.mask

theorem OpcodeRow.covers_iff {r : OpcodeRow} {f : Format} {w : Nat} :
    r.covers f w = true ↔ r.format = f ∧ w &&& r.mask = r.matchBits := by
  simp [OpcodeRow.covers]

theorem OpcodeRow.Exclusive.not_covers {r r' : OpcodeRow} (h : r.Exclusive r') {f : Format} {w : Nat}
    (hr : r.covers f w = true) : ¬ r'.covers f w = true := by
  intro hr'
  rw [covers_iff] at hr hr'
  obtain ⟨rfl, hw⟩ := hr
  obtain ⟨hf, hw'⟩ := hr'
  rcases h with h | h
  · exact h hf.symm
  · rw [← hw, ← hw', Nat.and_right_comm] at h
    exact h rfl

/-- The 29 rows exclude each other. -/
theorem opcodeTable_exclusive : opcodeTable.Pairwise OpcodeRow.Exclusive := by decide

theorem Instr.row_mem_opcodeTable (i : Instr) : i.row ∈ opcodeTable := by
  cases i <;> simp [opcodeTable, registerRows, reservedRows, refusedRows, commandRows, Instr.row]

/-- Of rows that exclude each other, a word's row is the only one that it matches. -/
theorem filter_covers_eq_singleton {rows : List OpcodeRow} (hex : rows.Pairwise OpcodeRow.Exclusive) {r : OpcodeRow}
    (hmem : r ∈ rows) {f : Format} {w : Nat} (hr : r.covers f w = true) :
    rows.filter (fun r => r.covers f w) = [r] := by
  induction rows with
  | nil => cases hmem
  | cons x rest ih =>
    obtain ⟨hx, hrest⟩ := List.pairwise_cons.1 hex
    rcases List.mem_cons.1 hmem with rfl | hin
    · have hnil : rest.filter (fun r => r.covers f w) = [] :=
        List.filter_eq_nil_iff.2 fun y hy => (hx y hy).not_covers hr
      simp [hr, hnil]
    · have hx' : ¬ x.covers f w = true := fun hc => (hx r hin).not_covers hc hr
      simp [hx', ih hrest hin]

/-! ### A well-formed instruction is of its row -/

/-- A mask laid out as a descriptor masks field by field. -/
theorem makeDesc_and (z z' : BitVec 2) (w w' : Bool) (o o' : BitVec 12) :
    makeDesc z w o &&& makeDesc z' w' o' = makeDesc (z &&& z') (w && w') (o &&& o') := by
  unfold makeDesc
  rw [← BitVec.ofBool_and_ofBool, ← BitVec.and_append]
  exact BitVec.and_append

/-- A REG row read field by field: `zm wm om` are the fields of its mask, `zv wv ov` those of its match. -/
theorem OpcodeRow.covers_makeDesc {r : OpcodeRow} {zm zv z : BitVec 2} {wm wv w : Bool} {om ov o : BitVec 12}
    (hr : r.format = .reg ∧ r.mask = (makeDesc zm wm om).toNat ∧ r.matchBits = (makeDesc zv wv ov).toNat)
    (hz : z &&& zm = zv) (hw : (w && wm) = wv) (ho : o &&& om = ov) : r.covers .reg (makeDesc z w o).toNat = true := by
  obtain ⟨hformat, hmask, hmatch⟩ := hr
  rw [covers_iff, hmask, hmatch, ← BitVec.toNat_and, makeDesc_and, hz, hw, ho]
  exact ⟨hformat, rfl⟩

/-- A row that looks at neither W nor the low k bits of the index is the row of 2^k reserved registers. -/
theorem OpcodeRow.covers_reserved {r : OpcodeRow} (k : Nat) (q : BitVec 10) {index : BitVec 10} (w : Bool)
    (hr : r.format = .reg ∧ r.mask = (makeDesc 3 false (BitVec.allOnes 10 <<< k ++ (3 : BitVec 2))).toNat ∧
      r.matchBits = (makeDesc 2 false (q <<< k ++ (0 : BitVec 2))).toNat)
    (hindex : index.toNat / 2 ^ k = q.toNat) :
    r.covers .reg (makeDesc 2 w (index ++ (0 : BitVec 2))).toNat = true := by
  have hq : index >>> k = q := by
    apply BitVec.eq_of_toNat_eq
    rw [BitVec.toNat_ushiftRight, Nat.shiftRight_eq_div_pow, hindex]
  refine covers_makeDesc hr rfl (Bool.and_false w) ?_
  rw [BitVec.and_append, ← BitVec.shiftLeft_ushiftRight, hq]
  rfl

/-- The indices of a row of 2^k reserved registers agree above their low k bits. -/
theorem index_div {lo hi k q : Nat} {index : BitVec 10} (h : indexIn lo hi index = true) (hlo : lo = q * 2 ^ k)
    (hhi : hi < (q + 1) * 2 ^ k) : index.toNat / 2 ^ k = q := by
  obtain ⟨h1, h2⟩ := indexIn_iff.1 h
  exact Nat.div_eq_of_lt_le (hlo ▸ h1) (lt_of_le_of_lt h2 hhi)

theorem offset_and_one {o : BitVec 12} (h0 : o.getLsbD 0 = true) : o &&& 1 = 1 := by
  rw [BitVec.getLsbD, Nat.testBit_zero, decide_eq_true_eq] at h0
  exact BitVec.eq_of_toNat_eq ((Nat.and_one_is_mod _).trans h0)

theorem offset_and_three {o : BitVec 12} (h0 : o.getLsbD 0 = false) (h1 : o.getLsbD 1 = true) : o &&& 3 = 2 := by
  simp only [BitVec.getLsbD, Nat.testBit_eq_decide_div_mod_eq, decide_eq_true_eq, decide_eq_false_iff_not] at h0 h1
  have hmod : o.toNat % 2 ^ 2 = 2 := by omega
  exact BitVec.eq_of_toNat_eq ((Nat.and_two_pow_sub_one_eq_mod o.toNat 2).trans hmod)

/-- The descriptor of a well-formed instruction is of the instruction's row (R95). -/
theorem Instr.row_covers_desc {i : Instr} {d : BitVec 15} {data : Word} (h : i.wellFormed = true)
    (henc : encode i = .reg d data) : i.row.covers .reg d.toNat = true := by
  cases i with
  | nop | start | cmdRsvd2to3 | cmdRsvd4to7 | cmdRsvd8to15 => cases henc
  | rdAddr | wrAddr | rdLen | wrLen | rdCtrl | wrCtrl | rdStatus | wrStatus | rdResult | wrResult =>
    obtain ⟨rfl, -⟩ := Access.reg.inj henc
    simp only [Instr.row, Dir.isWrite]
    rfl
  | rsvdIndex5 dir =>
    obtain ⟨rfl, -⟩ := Access.reg.inj henc
    exact OpcodeRow.covers_reserved 0 5 dir.isWrite ⟨rfl, rfl, rfl⟩ rfl
  | rsvdIndex6to7 index dir =>
    obtain ⟨rfl, -⟩ := Access.reg.inj henc
    exact OpcodeRow.covers_reserved 1 3 dir.isWrite ⟨rfl, rfl, rfl⟩ (index_div h (by decide) (by decide))
  | rsvdIndex8to15 index dir =>
    obtain ⟨rfl, -⟩ := Access.reg.inj henc
    exact OpcodeRow.covers_reserved 3 1 dir.isWrite ⟨rfl, rfl, rfl⟩ (index_div h (by decide) (by decide))
  | rsvdIndex16to31 index dir =>
    obtain ⟨rfl, -⟩ := Access.reg.inj henc
    exact OpcodeRow.covers_reserved 4 1 dir.isWrite ⟨rfl, rfl, rfl⟩ (index_div h (by decide) (by decide))
  | rsvdIndex32to63 index dir =>
    obtain ⟨rfl, -⟩ := Access.reg.inj henc
    exact OpcodeRow.covers_reserved 5 1 dir.isWrite ⟨rfl, rfl, rfl⟩ (index_div h (by decide) (by decide))
  | rsvdIndex64to127 index dir =>
    obtain ⟨rfl, -⟩ := Access.reg.inj henc
    exact OpcodeRow.covers_reserved 6 1 dir.isWrite ⟨rfl, rfl, rfl⟩ (index_div h (by decide) (by decide))
  | rsvdIndex128to255 index dir =>
    obtain ⟨rfl, -⟩ := Access.reg.inj henc
    exact OpcodeRow.covers_reserved 7 1 dir.isWrite ⟨rfl, rfl, rfl⟩ (index_div h (by decide) (by decide))
  | rsvdIndex256to511 index dir =>
    obtain ⟨rfl, -⟩ := Access.reg.inj henc
    exact OpcodeRow.covers_reserved 8 1 dir.isWrite ⟨rfl, rfl, rfl⟩ (index_div h (by decide) (by decide))
  | rsvdIndex512to1023 index dir =>
    obtain ⟨rfl, -⟩ := Access.reg.inj henc
    exact OpcodeRow.covers_reserved 9 1 dir.isWrite ⟨rfl, rfl, rfl⟩ (index_div h (by decide) (by decide))
  | refusedSize0 offset dir | refusedSize1 offset dir | refusedSize3 offset dir =>
    obtain ⟨rfl, -⟩ := Access.reg.inj henc
    exact OpcodeRow.covers_makeDesc (zm := 3) (wm := false) (om := 0) (ov := 0) ⟨rfl, rfl, rfl⟩ rfl
      (Bool.and_false _) BitVec.and_zero
  | refusedOffsetOdd offset dir =>
    obtain ⟨rfl, -⟩ := Access.reg.inj henc
    exact OpcodeRow.covers_makeDesc (zm := 3) (wm := false) ⟨rfl, rfl, rfl⟩ rfl (Bool.and_false _) (offset_and_one h)
  | refusedOffsetTwo offset dir =>
    obtain ⟨rfl, -⟩ := Access.reg.inj henc
    simp only [Instr.wellFormed, Bool.and_eq_true, Bool.not_eq_true'] at h
    obtain ⟨h0, h1⟩ := h
    exact OpcodeRow.covers_makeDesc (zm := 3) (wm := false) ⟨rfl, rfl, rfl⟩ rfl (Bool.and_false _)
      (offset_and_three h0 h1)

/-- A descriptor is made of its fields (R91). -/
theorem makeDesc_fields (d : BitVec 15) : makeDesc (descSize d) (descWrite d) (descOffset d) = d := by
  have hd := d.isLt
  apply BitVec.eq_of_toNat_eq
  rw [makeDesc_toNat, descSize, descWrite, descOffset, BitVec.extractLsb'_toNat, BitVec.extractLsb'_toNat,
    BitVec.getLsbD, Nat.toNat_testBit, Nat.shiftRight_eq_div_pow, Nat.shiftRight_eq_div_pow]
  omega

/-- A direction's bit W is the descriptor's. -/
theorem descDir_isWrite (d : BitVec 15) (data : Word) : (descDir d data).isWrite = descWrite d := by
  unfold descDir
  split
  · rename_i h
    exact h.symm
  · rename_i h
    exact (Bool.eq_false_iff.2 h).symm

/-- Settles O6: the descriptor is the encoding of what the decoder reads from it, so it is of that row, and the rows
exclude each other. -/
theorem descriptorMatchesExactlyOneRow : Obligations.DescriptorMatchesExactlyOneRow := by
  intro d data
  refine filter_covers_eq_singleton opcodeTable_exclusive (Instr.row_mem_opcodeTable _) ?_
  obtain ⟨hwf, henc⟩ := decodeFields_sound (descSize d) (descOffset d) (descDir d data)
  rw [encodeAt, descDir_isWrite, makeDesc_fields] at henc
  exact Instr.row_covers_desc hwf henc

/-- A row of the CMD map looks at OP alone (R93, R96). -/
theorem cmd_masks_in_op : ∀ r ∈ opcodeTable, r.format = .cmd → r.mask = 0xF &&& r.mask := by decide

theorem decodeOp_row_covers : ∀ op : BitVec 4, (decodeOp op).row.covers .cmd op.toNat = true := by decide

theorem cmdOp_toNat (w : Word) : (cmdOp w).toNat = w.toNat &&& 0xF := by
  rw [cmdOp, BitVec.extractLsb'_toNat, Nat.shiftRight_zero]
  exact (Nat.and_two_pow_sub_one_eq_mod w.toNat 4).symm

/-- Settles O7: the row of the OP covers the word, whose other bits no row looks at, and the rows exclude each other. -/
theorem commandMatchesExactlyOneRow : Obligations.CommandMatchesExactlyOneRow := by
  intro w
  refine filter_covers_eq_singleton opcodeTable_exclusive (Instr.row_mem_opcodeTable _) ?_
  obtain ⟨hformat, hmatch⟩ := OpcodeRow.covers_iff.1 (decodeOp_row_covers (cmdOp w))
  refine OpcodeRow.covers_iff.2 ⟨hformat, ?_⟩
  rw [cmdOp_toNat, Nat.and_assoc, ← cmd_masks_in_op _ (Instr.row_mem_opcodeTable _) hformat] at hmatch
  exact hmatch

/-! ### The register index (R92) -/

/-- A legal descriptor's index selects the register, and W its write or its read. -/
theorem decode_register {d : BitVec 15} (hz : descSize d = 2) (index : BitVec 10)
    (ho : descOffset d = index ++ (0 : BitVec 2)) (data : Word) :
    decode (.reg d data) = if descWrite d then decodeIndex index (.write data) else decodeIndex index .read := by
  have hindex : decode (.reg d data) = decodeIndex index (descDir d data) := by
    rw [← decode_encodeIndex, encodeIndex, decode_encodeAt, ← hz, ← ho]
    rfl
  rw [hindex, descDir, apply_ite (decodeIndex index)]

end Sys2Proof

namespace Sys2Proof.Machine

/-- SIZE is checked first, then the alignment: a transaction that fails either is refused with RF1 (R92, R165). -/
theorem exec_decodeFields_illegal {z : BitVec 2} {o : BitVec 12} (h : z ≠ 2 ∨ o.toNat % 4 ≠ 0) (dir : Dir)
    (s : State) : exec (decodeFields z o dir) s = .refused .illegalAccess := by
  rcases size_cases z with rfl | rfl | rfl | rfl
  · rfl
  · rfl
  · rfl
  · cases h0 : o.getLsbD 0 with
    | true => rw [decodeFields_odd h0]; rfl
    | false =>
      cases h1 : o.getLsbD 1 with
      | true => rw [decodeFields_two h0 h1]; rfl
      | false => exact absurd ((offset_mod_four_iff o).2 ⟨h0, h1⟩) (h.resolve_left fun hz => hz rfl)

/-- Every register from index 5 up is reserved (R36, R164). -/
theorem exec_decodeIndex_reserved {index : BitVec 10} (h : 5 ≤ index.toNat) (dir : Dir) (s : State) :
    exec (decodeIndex index dir) s = accessReserved dir s := by
  rcases Nat.eq_or_lt_of_le h with h5 | h6
  · obtain rfl : index = 5 := BitVec.eq_of_toNat_eq h5.symm
    rfl
  · rw [decodeIndex_reserved h6]
    split_ifs <;> rfl

/-- Settles O8: the decoder's checks in their order, and the reserved registers as one rule. -/
theorem registerIndexSelectsTheRegister : Obligations.RegisterIndexSelectsTheRegister := by
  intro d data s
  refine ⟨fun h => exec_decodeFields_illegal h _ s, fun hz => ⟨?_, ?_, ?_, ?_, ?_, ?_⟩⟩
  · exact fun ho => decode_register hz 0 ho data
  · exact fun ho => decode_register hz 1 ho data
  · exact fun ho => decode_register hz 2 ho data
  · exact fun ho => decode_register hz 3 ho data
  · exact fun ho => decode_register hz 4 ho data
  · intro ha h14
    have hindex : 5 ≤ (offsetIndex (descOffset d)).toNat := by
      rw [offsetIndex_toNat]
      omega
    rw [decode_register hz _ (offsetIndex_append_zero ha).symm data]
    split <;> exact exec_decodeIndex_reserved hindex _ s

/-! ### Equal sums

The engine and the checksum function both keep a sum modulo 0xFFFF, and both keep 0 apart from the other multiples of
0xFFFF (R122, R131). Every operation on the way from one to the other keeps both. -/

/-- Equal modulo 0xFFFF, and zero together. -/
def SumEq (x y : Nat) : Prop := x % 0xFFFF = y % 0xFFFF ∧ (x = 0 ↔ y = 0)

theorem SumEq.refl (x : Nat) : SumEq x x := ⟨rfl, Iff.rfl⟩

theorem SumEq.symm {x y : Nat} (h : SumEq x y) : SumEq y x := ⟨h.1.symm, h.2.symm⟩

theorem SumEq.trans {x y z : Nat} (h : SumEq x y) (h' : SumEq y z) : SumEq x z :=
  ⟨h.1.trans h'.1, h.2.trans h'.2⟩

theorem SumEq.add {x y x' y' : Nat} (h : SumEq x y) (h' : SumEq x' y') : SumEq (x + x') (y + y') := by
  unfold SumEq at *
  omega

theorem SumEq.mul_left {x y : Nat} (h : SumEq x y) : SumEq (256 * x) (256 * y) := by
  unfold SumEq at *
  omega

/-- Sums that fit in RES are equal when they agree: 0 and 0xFFFF are told apart. -/
theorem SumEq.eq_of_le {x y : Nat} (h : SumEq x y) (hx : x ≤ 0xFFFF) (hy : y ≤ 0xFFFF) : x = y := by
  unfold SumEq at h
  omega

theorem fold16_sumEq (v : Nat) : SumEq (fold16 v) v := by
  rw [fold16_eq]
  unfold SumEq
  omega

theorem addEac_sumEq (a b : Word) : SumEq (addEac a b).toNat (a.toNat + b.toNat) := by
  rw [addEac_toNat]
  unfold SumEq
  omega

/-- A byte swap weighs each byte by the other's weight. -/
theorem swap16_sumEq (v : Half) : SumEq (swap16 v).toNat (256 * v.toNat) := by
  rw [swap16_toNat]
  unfold SumEq
  omega

theorem foldUpTo_sumEq (fuel v : Nat) : SumEq (foldUpTo fuel v) v := by
  induction fuel generalizing v with
  | zero => exact .refl v
  | succ fuel ih =>
    rw [foldUpTo]
    split
    · exact .refl v
    · exact (ih _).trans (fold16_sumEq v)

/-- Each fold of a value above 0xFFFF decreases it. -/
theorem foldUpTo_le {fuel v : Nat} (h : v ≤ fuel + 0xFFFF) : foldUpTo fuel v ≤ 0xFFFF := by
  induction fuel generalizing v with
  | zero => simpa [foldUpTo] using h
  | succ fuel ih =>
    rw [foldUpTo]
    split
    · assumption
    · apply ih
      rw [fold16_eq]
      omega

/-- RES holds the sum of the bytes (R123, R124). -/
theorem checksum_toNat (bytes : List Byte) : (checksum bytes).toNat = foldStar (wordSum bytes) := by
  have hle : foldStar (wordSum bytes) ≤ 0xFFFF := foldUpTo_le (Nat.le_add_right _ _)
  rw [checksum, BitVec.toNat_ofNat, Nat.mod_eq_of_lt (by omega)]

theorem checksum_sumEq (bytes : List Byte) : SumEq (checksum bytes).toNat (wordSum bytes) := by
  rw [checksum_toNat]
  exact foldUpTo_sumEq _ _

/-- 2^8 squared is 1 modulo 0xFFFF, so exchanging the two weights multiplies the sum by 2^8 (R130). -/
theorem weightedSum_not_sumEq (high : Bool) (bytes : List Byte) :
    SumEq (256 * weightedSum (!high) bytes) (weightedSum high bytes) := by
  induction bytes generalizing high with
  | nil => exact .refl 0
  | cons b rest ih =>
    rw [weightedSum, weightedSum, Nat.mul_add]
    refine SumEq.add ?_ (ih (!high))
    unfold SumEq
    cases high <;> simp <;> omega

/-- A half that agrees with the sum by ADDRESS parity is the checksum, its bytes swapped for an odd address (R185). -/
theorem eq_checksum_of_sumEq {v : Half} {bytes : List Byte} {odd : Bool}
    (h : SumEq v.toNat (weightedSum (!odd) bytes)) : (if odd then swap16 v else v) = checksum bytes := by
  have hsum : SumEq (if odd then swap16 v else v).toNat (wordSum bytes) := by
    cases odd with
    | false => exact h
    | true =>
      exact ((swap16_sumEq v).trans h.mul_left).trans (weightedSum_not_sumEq true bytes)
  refine BitVec.eq_of_toNat_eq ((hsum.trans (checksum_sumEq bytes).symm).eq_of_le ?_ ?_)
  · exact Nat.le_of_lt_succ (BitVec.isLt _)
  · exact Nat.le_of_lt_succ (BitVec.isLt _)

/-! ### The reads of an operation (R182, R183) -/

theorem byteAddend_sumEq (a : Word) (v : Byte) : SumEq (byteAddend a v).toNat (weightedSum (!isOdd a) [v]) := by
  have hsum : weightedSum (!isOdd a) [v] = (byteAddend a v).toNat := by
    rw [byteAddend_toNat]
    cases isOdd a <;> simp [weightedSum]
  rw [hsum]
  exact .refl _

/-- The two big-endian halves of a word weigh the same modulo 0xFFFF. -/
theorem readWord_sumEq (m : Memory) (a : Nat) :
    SumEq (m.readWord a).toNat (weightedSum true (m.readBytes a 4)) := by
  rw [Memory.readWord, be32_toNat, Memory.readBytes_four]
  simp only [weightedSum, SumEq, Bool.not_true, Bool.not_false, if_true, Bool.false_eq_true, if_false]
  omega

theorem Summing.sumEq {a n : Word} {bytes : List Byte} {s : State} (h : Summing a n bytes s) :
    SumEq s.eng.acc.toNat (weightedSum (!isOdd a) bytes) := ⟨h.residue, h.zero_iff⟩

/-- While bytes are left, PTR is the first of them (R187). -/
theorem Summing.ptr_toNat {a n : Word} {bytes : List Byte} {s : State} (h : Summing a n bytes s)
    (hrem : 0 < s.eng.rem.toNat) : s.eng.ptr.toNat = a.toNat + bytes.length := by
  have hptr := h.ptr_eq
  have hfits := h.fits
  have hcount := h.count
  omega

/-- The next byte's weight is that of its place in the buffer. -/
theorem Summing.weight {a n : Word} {bytes : List Byte} {s : State} (h : Summing a n bytes s)
    (hrem : 0 < s.eng.rem.toNat) :
    (!isOdd s.eng.ptr) = if bytes.length % 2 = 0 then !isOdd a else !!isOdd a := by
  rw [isOdd_eq, isOdd_eq, h.ptr_toNat hrem]
  split
  · congr 2
    exact propext (by omega)
  · rw [← decide_not, ← decide_not, ← decide_not]
    congr 1
    exact propext (by omega)

/-- A step that adds the next bytes and moves PTR and REM over them keeps what ACC stands for. -/
theorem Summing.advance {a n : Word} {bytes : List Byte} {s : State} (h : Summing a n bytes s) {m v : Word}
    {next : List Byte} (hlen : next.length = m.toNat) (hpos : 0 < m.toNat) (hle : m.toNat ≤ s.eng.rem.toNat)
    (hv : SumEq v.toNat (weightedSum (!isOdd s.eng.ptr) next)) :
    Summing a n (bytes ++ next) (s.setEng (s.eng.advance v m)) := by
  have hrem : (s.eng.rem - m).toNat = s.eng.rem.toNat - m.toNat := by bv_omega
  have hsum : SumEq (addEac s.eng.acc v).toNat (weightedSum (!isOdd a) (bytes ++ next)) := by
    rw [weightedSum_append, ← h.weight (by omega)]
    exact (addEac_sumEq _ _).trans (h.sumEq.add hv)
  have hptr := h.ptr_toNat (by omega)
  have hfits := h.fits
  have hcount := h.count
  constructor
  · constructor
    · exact h.busy
    · exact hfits
    · simp only [State.setEng_eng, Engine.advance_rem]
      omega
    · simp only [State.setEng_eng, Engine.advance_rem, Engine.advance_ptr, BitVec.toNat_add, hrem, hptr]
      congr 1
      omega
    · exact h.swap_eq
  · simp only [State.setEng_eng, Engine.advance_rem, hrem, List.length_append]
    omega
  · exact hsum.1
  · exact hsum.2

theorem engineStep_of_byte {s : State} (hb : s.busy = true) (hk : engineKind s.eng = .byte)
    (hread : allReadable s.platform s.eng.ptr.toNat 1 = true) :
    engineStep s = .next (s.setEng (s.eng.advance (byteAddend s.eng.ptr (s.mem.read s.eng.ptr.toNat)) 1)) := by
  simp only [engineStep, hb, hk, byteStep, hread, if_true]

theorem engineStep_of_word {s : State} (hb : s.busy = true) (hk : engineKind s.eng = .word)
    (hread : allReadable s.platform s.eng.ptr.toNat 4 = true) :
    engineStep s = .next (s.setEng (s.eng.advance (s.mem.readWord s.eng.ptr.toNat) 4)) := by
  simp only [engineStep, hb, hk, wordStep, hread, if_true]

theorem engineStep_of_fold {s : State} (hb : s.busy = true) (hk : engineKind s.eng = .fold) :
    engineStep s = .next (s.setEng { s.eng with acc := foldWord s.eng.acc }) := by
  simp only [engineStep, hb, hk, foldStep, if_true]

theorem engineStep_of_finish {s : State} (hb : s.busy = true) (hk : engineKind s.eng = .finish) :
    engineStep s = .next (s.setRes s.eng.result).flagsFinished := by
  simp only [engineStep, hb, hk, finishStep, if_true]

/-- While bytes are left and all are readable, the engine's step reads the next one or the next four. -/
theorem Summing.read_step {a n : Word} {bytes : List Byte} {s : State} (h : Summing a n bytes s)
    (hread : ∀ k < n.toNat, readable s.platform (a.toNat + k) = true) (hrem : 0 < s.eng.rem.toNat) :
    ∃ m e, engineStep s = .next (s.setEng e) ∧ 0 < m ∧ e.rem.toNat + m = s.eng.rem.toNat ∧
      Summing a n (bytes ++ s.mem.readBytes (a.toNat + bytes.length) m) (s.setEng e) := by
  have hptr := h.ptr_toNat hrem
  have hcount := h.count
  have hall : ∀ m ≤ s.eng.rem.toNat, allReadable s.platform s.eng.ptr.toNat m = true := by
    intro m hm
    rw [allReadable_iff]
    intro k hk
    rw [hptr, Nat.add_assoc]
    exact hread _ (by omega)
  rcases engineKind_cases s.eng with ⟨hk, _⟩ | ⟨hk, haligned, hfour⟩ | ⟨_, h0, _⟩ | ⟨_, h0, _⟩
  · refine ⟨1, _, engineStep_of_byte h.busy hk (hall 1 hrem), Nat.one_pos, ?_, ?_⟩
    · simp only [Engine.advance_rem]
      bv_omega
    · rw [← hptr]
      exact h.advance rfl Nat.one_pos hrem (byteAddend_sumEq _ _)
  · refine ⟨4, _, engineStep_of_word h.busy hk (hall 4 hfour), by decide, ?_, ?_⟩
    · simp only [Engine.advance_rem]
      bv_omega
    · have heven : isOdd s.eng.ptr = false := by
        rw [isOdd_eq, decide_eq_false_iff_not]
        omega
      rw [← hptr]
      refine h.advance rfl (by decide) hfour ?_
      rw [heven]
      exact readWord_sumEq _ _
  · omega
  · omega

/-! ### A whole operation that nothing comes between (R186, R188) -/

/-- With no turn left and BUSY = 1 the engine steps (log entry 1). -/
theorem step_engine {s : State} (hrun : s.running) (hscript : s.script = []) (hb : s.busy = true) :
    step s = engineStep s := by
  rw [step_of_running hrun, State.nextTurn_nil hscript, if_pos hb]
  rfl

/-- The reads: at most one step for each byte left. -/
theorem Summing.run_reads {a n : Word} {bytes : List Byte} {s : State} (h : Summing a n bytes s)
    (hrun : s.running) (hscript : s.script = [])
    (hread : ∀ k < n.toNat, readable s.platform (a.toNat + k) = true) :
    ∃ j ≤ s.eng.rem.toNat, ∃ e, runSteps j s = .next (s.setEng e) ∧ e.rem.toNat = 0 ∧
      Summing a n (bytes ++ s.mem.readBytes (a.toNat + bytes.length) s.eng.rem.toNat) (s.setEng e) := by
  induction hk : s.eng.rem.toNat using Nat.strong_induction_on generalizing s bytes with
  | _ k ih =>
    subst hk
    rcases Nat.eq_zero_or_pos s.eng.rem.toNat with h0 | hpos
    · refine ⟨0, Nat.zero_le _, s.eng, rfl, h0, ?_⟩
      rw [h0, Memory.readBytes, List.append_nil]
      exact h
    · obtain ⟨m, e, hstep, hm, hrem, hsum⟩ := h.read_step hread hpos
      obtain ⟨j, hj, e', hsteps, hrem', hsum'⟩ := ih e.rem.toNat (by omega) hsum hrun hscript hread rfl
      refine ⟨j + 1, by omega, e', ?_, hrem', ?_⟩
      · rw [runSteps_succ_of_next ((step_engine hrun hscript h.busy).trans hstep)]
        exact hsteps
      · rw [List.length_append, Memory.readBytes_length, ← Nat.add_assoc, List.append_assoc] at hsum'
        rw [← hrem, Nat.add_comm e.rem.toNat, Memory.readBytes_append]
        exact hsum'

/-- A FOLD step keeps what ACC stands for (R184). -/
theorem Summing.fold {a n : Word} {bytes : List Byte} {s : State} (h : Summing a n bytes s) :
    Summing a n bytes (s.setEng { s.eng with acc := foldWord s.eng.acc }) := by
  have hsum : SumEq (foldWord s.eng.acc).toNat (weightedSum (!isOdd a) bytes) := by
    rw [foldWord_toNat]
    exact (fold16_sumEq _).trans h.sumEq
  exact { h with
    residue := hsum.1
    zero_iff := hsum.2 }

/-- With no byte left, a FOLD step is enabled while ACC has more than 16 bits, and then FINISH (R181). -/
theorem engineKind_of_rem_zero {e : Engine} (h : e.rem.toNat = 0) :
    (engineKind e = .fold ∧ 0xFFFF < e.acc.toNat) ∨ (engineKind e = .finish ∧ e.acc.toNat ≤ 0xFFFF) := by
  rcases engineKind_cases e with ⟨_, hpos, _⟩ | ⟨_, _, hfour⟩ | ⟨hk, _, hacc⟩ | ⟨hk, _, hacc⟩
  · omega
  · omega
  · exact .inl ⟨hk, hacc⟩
  · exact .inr ⟨hk, hacc⟩

/-- The folds: as many steps as bring ACC below 2^16. -/
theorem Summing.run_folds {a n : Word} {bytes : List Byte} {s : State} (h : Summing a n bytes s)
    (hrun : s.running) (hscript : s.script = []) (hrem : s.eng.rem.toNat = 0) {k : Nat}
    (hk : foldUpTo k s.eng.acc.toNat ≤ 0xFFFF) :
    ∃ j ≤ k, ∃ e, runSteps j s = .next (s.setEng e) ∧ engineKind e = .finish ∧ Summing a n bytes (s.setEng e) := by
  induction k generalizing s with
  | zero =>
    obtain ⟨hfinish, _⟩ := (engineKind_of_rem_zero hrem).resolve_left fun hfold => Nat.not_lt.2 hk hfold.2
    exact ⟨0, Nat.le_refl 0, s.eng, rfl, hfinish, h⟩
  | succ k ih =>
    rcases engineKind_of_rem_zero hrem with ⟨hfold, hacc⟩ | ⟨hfinish, _⟩
    · rw [foldUpTo_succ_of_gt hacc, ← foldWord_toNat] at hk
      obtain ⟨j, hj, e, hsteps, he⟩ := ih h.fold hrun hscript hrem hk
      refine ⟨j + 1, by omega, e, ?_, he⟩
      rw [runSteps_succ_of_next ((step_engine hrun hscript h.busy).trans (engineStep_of_fold h.busy hfold))]
      exact hsteps
    · exact ⟨0, Nat.zero_le _, s.eng, rfl, hfinish, h⟩

/-- Two folds are enough for a 32-bit ACC (R186). -/
theorem foldUpTo_two_le (v : Word) : foldUpTo 2 v.toNat ≤ 0xFFFF := by
  have hv := v.isLt
  simp only [foldUpTo, fold16_eq]
  split_ifs <;> omega

/-- FINISH writes the checksum of the bytes read (R185, R188). -/
theorem Summing.finish_step {a n : Word} {bytes : List Byte} {s : State} (h : Summing a n bytes s)
    (hk : engineKind s.eng = .finish) : engineStep s = .next (s.atomicOperation bytes) := by
  have hacc : s.eng.acc.toNat ≤ 0xFFFF := by
    have hcases := engineKind_cases s.eng
    simp only [hk, reduceCtorEq, false_and, false_or, true_and] at hcases
    exact hcases.2
  have hlow : (s.eng.acc.setWidth 16).toNat = s.eng.acc.toNat := by
    rw [BitVec.toNat_setWidth]
    omega
  have hresult : s.eng.result = checksum bytes := by
    rw [Engine.result, h.swap_eq]
    exact eq_checksum_of_sumEq (hlow ▸ h.sumEq)
  rw [engineStep_of_finish h.busy hk, hresult]
  rfl

/-- From any point of an operation the engine's steps come to what is left of the atomic operation (R189). -/
theorem Summing.run_operation {a n : Word} {bytes : List Byte} {s : State} (h : Summing a n bytes s)
    (hrun : s.running) (hscript : s.script = [])
    (hread : ∀ k < n.toNat, readable s.platform (a.toNat + k) = true) :
    ∃ j ≤ s.eng.rem.toNat + 3, ∃ e, runSteps j s = .next ((s.setEng e).atomicOperation
      (bytes ++ s.mem.readBytes (a.toNat + bytes.length) s.eng.rem.toNat)) := by
  obtain ⟨j, hj, e, hreads, hrem, hsum⟩ := h.run_reads hrun hscript hread
  obtain ⟨k, hk, e', hfolds, hfinish, hsum'⟩ := hsum.run_folds hrun hscript hrem (foldUpTo_two_le e.acc)
  have hfinal := (step_engine (s := s.setEng e') hrun hscript hsum'.busy).trans (hsum'.finish_step hfinish)
  refine ⟨j + (k + 1), by omega, e', ?_⟩
  rw [runSteps_add hreads, runSteps_add hfolds]
  exact runSteps_succ_of_next hfinal 0

/-- START begins an operation with no byte read (R157, R188). -/
theorem Summing.startAccepted {s : State} (hfit : s.addr.toNat + s.len.toNat ≤ 2 ^ 32) :
    Summing s.addr s.len [] s.startAccepted where
  busy := rfl
  fits := hfit
  rem_le := Nat.le_refl _
  ptr_eq := by
    have haddr := s.addr.isLt
    show s.addr.toNat = (s.addr.toNat + s.len.toNat - s.len.toNat) % 2 ^ 32
    omega
  swap_eq := rfl
  count := Nat.zero_add _
  residue := rfl
  zero_iff := Iff.rfl

/-- From START to FINISH (R189). -/
theorem run_startAccepted {s : State} (hrun : s.running) (hscript : s.script = [])
    (hc : CallerContract s.platform s.addr s.len) :
    ∃ j ≤ s.len.toNat + 3, ∃ e, runSteps j s.startAccepted =
      .next ((s.setEng e).atomicOperation (s.mem.readBytes s.addr.toNat s.len.toNat)) := by
  obtain ⟨hfit, hread, -⟩ := hc
  exact (Summing.startAccepted hfit).run_operation hrun hscript hread

/-! ### The call CSUM (R100) -/

/-- On an idle block the host's turn comes, and takes the head of the queue (log entry 1, R166). -/
theorem IdleWith.step_head {s : State} {x : Access} {q : List Access} (h : IdleWith (x :: q) s) :
    step s = exec (decode x) (s.setFront x q) := by
  have htake : s.take = some (x, s.setFront x q) := by simp [State.take, h.pending, h.queue]
  rw [step_of_running h.running, State.nextTurn_nil h.script, h.busy]
  simp [turnMove, hostTurn, h.hostStuck, htake, Move.outcome]

section
variable {s : State} {q : List Access}

theorem IdleWith.step_wrAddr {a : Word} (h : IdleWith (encode (.wrAddr a) :: q) s) :
    step s = .next { s with addr := a, pending := none, queue := q } := by
  rw [h.step_head, decode_encode _ rfl]
  rfl

theorem IdleWith.step_wrLen {n : Word} (h : IdleWith (encode (.wrLen n) :: q) s) :
    step s = .next { s with len := n, pending := none, queue := q } := by
  rw [h.step_head, decode_encode _ rfl]
  rfl

/-- The CTRL write of START is accepted where the caller contract holds (R155, R157, R250). -/
theorem IdleWith.step_start (h : IdleWith (encode (.wrCtrl 1) :: q) s)
    (hc : CallerContract s.platform s.addr s.len) :
    step s = .next { s with pending := none, queue := q }.startAccepted := by
  obtain ⟨hfit, -, hside⟩ := hc
  have hwrap : bufferWraps s.addr s.len = false :=
    Bool.eq_false_iff.2 fun hw => Nat.not_lt.2 hfit ((bufferWraps_iff _ _).1 hw)
  rw [h.step_head, decode_encode _ rfl]
  exact (heldWhileBusy_of_idle (s := s.setFront _ q) h.busy _).trans (startCommand_of_accepted hwrap hside)

theorem IdleWith.step_rdResult (h : IdleWith (encode .rdResult :: q) s) :
    step s = .next { s with pending := none, queue := q, reads := s.reads ++ [resultWord s] } := by
  rw [h.step_head, decode_encode _ rfl]
  exact heldWhileBusy_of_idle (s := s.setFront _ q) h.busy _

/-- CSUM_ISSUE on an idle block begins the operation (R100). -/
theorem IdleWith.run_csumIssue {a n : Word} (h : IdleWith (csumIssue a n ++ q) s)
    (hc : CallerContract s.platform a n) :
    runSteps 3 s = .next { s with addr := a, len := n, pending := none, queue := q }.startAccepted := by
  have haddr : IdleWith (encode (.wrLen n) :: encode (.wrCtrl 1) :: q) { s with
      addr := a, pending := none, queue := encode (.wrLen n) :: encode (.wrCtrl 1) :: q } :=
    ⟨h.running, h.script, h.busy, rfl, h.hostStuck, rfl⟩
  have hlen : IdleWith (encode (.wrCtrl 1) :: q) { s with
      addr := a, len := n, pending := none, queue := encode (.wrCtrl 1) :: q } :=
    ⟨h.running, h.script, h.busy, rfl, h.hostStuck, rfl⟩
  calc runSteps 3 s
      = runSteps 2 _ := runSteps_succ_of_next h.step_wrAddr 2
    _ = runSteps 1 _ := runSteps_succ_of_next haddr.step_wrLen 1
    _ = .next _ := runSteps_succ_of_next (hlen.step_start hc) 0

end

/-- Settles O57: CSUM_ISSUE begins the operation, the engine's run is the atomic operation, and the RESULT read then
finds an idle block. -/
theorem csumCallReturnsTheChecksum : Obligations.CsumCallReturnsTheChecksum := by
  intro s a n h hc
  have hissue := IdleWith.run_csumIssue (q := [encode .rdResult]) h hc
  obtain ⟨j, hj, e, hoperation⟩ := run_startAccepted (s := { s with
    addr := a, len := n, pending := none, queue := [encode .rdResult] }) h.running h.script hc
  have hidle : IdleWith [encode .rdResult] (({ s with
      addr := a, len := n, pending := none, queue := [encode .rdResult] }.setEng e).atomicOperation
        (s.mem.readBytes a.toNat n.toNat)) := ⟨h.running, h.script, rfl, rfl, h.hostStuck, rfl⟩
  have hrun := ((runSteps_add hissue _).trans (runSteps_add hoperation _)).trans
    (runSteps_succ_of_next hidle.step_rdResult 0)
  have hj : j ≤ n.toNat + 3 := hj
  have hnoIssue : s.script.all (fun t => !t.issues) = true := by rw [h.script]; rfl
  exact ⟨3 + (j + 1), by omega, _, hrun, ⟨rfl, rfl, hnoIssue, h.hostStuck, rfl, h.running⟩, rfl, rfl, rfl, rfl, rfl,
    rfl⟩

end Sys2Proof.Machine

/-! PROOFS. The family of 40_checksum_function.md: one fold and the iterated fold, the word sum and CSUM, the host's +16
and byte swap, the accumulator's addition, and what the call CSUM returns. A law that says two results are equal comes
to `SumEq` of the sums they were folded from. -/

namespace Sys2Proof.Machine

/-! ### The folds (R122, R123, R132) -/

theorem fold16_lt {v : Nat} (h : 0xFFFF < v) : fold16 v < v := by
  rw [fold16_eq]
  omega

theorem fold16_of_le {v : Nat} (h : v ≤ 0xFFFF) : fold16 v = v := by
  rw [fold16_eq]
  omega

/-- Settles O30: 2^16 is 1 modulo 0xFFFF, so a fold keeps the residue and zero. -/
theorem oneFoldLaws : Obligations.OneFoldLaws := by
  intro v
  obtain ⟨hmod, hzero⟩ := fold16_sumEq v
  exact ⟨hmod, hzero, fold16_lt, fold16_of_le⟩

theorem foldStar_le (v : Nat) : foldStar v ≤ 0xFFFF := foldUpTo_le (Nat.le_add_right _ _)

theorem foldStar_sumEq (v : Nat) : SumEq (foldStar v) v := foldUpTo_sumEq v v

/-- Residue, zero and bound together fix the iterated fold. -/
theorem foldStar_eq_of_sumEq {v w : Nat} (h : SumEq v w) (hw : w ≤ 0xFFFF) : foldStar v = w :=
  ((foldStar_sumEq v).trans h).eq_of_le (foldStar_le v) hw

theorem foldStar_congr {x y : Nat} (h : SumEq x y) : foldStar x = foldStar y :=
  foldStar_eq_of_sumEq (h.trans (foldStar_sumEq y).symm) (foldStar_le y)

/-- One fold of 32 bits leaves a carry of at most 1, which a second fold adds in. -/
theorem fold16_le_of_word {v : Nat} (h : v ≤ 0xFFFFFFFF) : fold16 v ≤ 0x1FFFE := by
  rw [fold16_eq]
  omega

theorem fold16_le_of_carry {v : Nat} (h : v ≤ 0x1FFFE) : fold16 v ≤ 0xFFFF := by
  rw [fold16_eq]
  omega

/-- Settles O31: each clause follows from residue, zero and bound, which fix the iterated fold. -/
theorem iteratedFoldConverges : Obligations.IteratedFoldConverges := by
  intro v
  refine ⟨foldStar_le v, foldStar_eq_of_sumEq (.refl v), fun _ => foldStar_congr (fold16_sumEq v).symm, fun hv => ?_⟩
  have hfold := fold16_le_of_word hv
  have htwo : SumEq (fold16 (fold16 v)) v := (fold16_sumEq _).trans (fold16_sumEq v)
  exact ⟨hfold, foldStar_eq_of_sumEq htwo.symm (fold16_le_of_carry hfold)⟩

/-- Settles O38: the iterated fold depends on the residue and on zero alone. -/
theorem foldTimingDoesNotMatter : Obligations.FoldTimingDoesNotMatter :=
  fun _ _ hmod hzero => foldStar_congr ⟨hmod, hzero⟩

/-! ### The word sum (R120, R121) -/

theorem toNat_eq_zero_iff {w : Nat} (v : BitVec w) : v.toNat = 0 ↔ v = 0 := by
  rw [← BitVec.toNat_inj, BitVec.ofNat_eq_ofNat, BitVec.toNat_zero]

theorem wordSum_cons_cons (b0 b1 : Byte) (rest : List Byte) :
    wordSum (b0 :: b1 :: rest) = b0.toNat * 2 ^ 8 + b1.toNat + wordSum rest := by
  simp only [wordSum, weightedSum, Bool.not_true, Bool.not_false, if_true, Bool.false_eq_true, if_false, Nat.add_assoc]

theorem wordSum_singleton (b : Byte) : wordSum [b] = b.toNat * 2 ^ 8 := by
  simp only [wordSum, weightedSum, if_true, Nat.add_zero]

theorem wordSum_append_even {xs : List Byte} (h : xs.length % 2 = 0) (ys : List Byte) :
    wordSum (xs ++ ys) = wordSum xs + wordSum ys := by
  rw [wordSum, weightedSum_append, if_pos h]
  rfl

/-- After an odd number of bytes the weights are exchanged. -/
theorem wordSum_append_odd {xs : List Byte} (h : xs.length % 2 = 1) (ys : List Byte) :
    wordSum (xs ++ ys) = wordSum xs + weightedSum false ys := by
  rw [wordSum, weightedSum_append, if_neg (by omega)]
  rfl

/-- Settles O32: a byte's weight is that of its place, and an even number of bytes before it keeps the place's parity. -/
theorem wordSumIsBigEndianWords : Obligations.WordSumIsBigEndianWords := by
  refine ⟨wordSum_singleton, wordSum_cons_cons, fun bytes b heven => ?_⟩
  rw [wordSum_append_even heven, wordSum_singleton]

theorem weightedSum_eq_zero_iff (high : Bool) (bytes : List Byte) :
    weightedSum high bytes = 0 ↔ ∀ b ∈ bytes, b = 0 := by
  induction bytes generalizing high with
  | nil => simp [weightedSum]
  | cons b rest ih =>
    have hb : (if high then b.toNat * 2 ^ 8 else b.toNat) = 0 ↔ b = 0 := by
      rw [← toNat_eq_zero_iff]
      cases high <;> simp
    rw [weightedSum, Nat.add_eq_zero_iff, hb, ih, List.forall_mem_cons]

/-! ### Results of 16 bits -/

/-- Two results are equal when the sums they hold agree. -/
theorem half_eq_of_sumEq {v w : Half} (h : SumEq v.toNat w.toNat) : v = w :=
  BitVec.eq_of_toNat_eq (h.eq_of_le (Nat.le_of_lt_succ v.isLt) (Nat.le_of_lt_succ w.isLt))

theorem half_eq_zero_iff_of_sumEq {v : Half} {x : Nat} (h : SumEq v.toNat x) : v = 0 ↔ x = 0 :=
  (toNat_eq_zero_iff v).symm.trans h.2

theorem ofNat_foldStar_toNat (v : Nat) : (BitVec.ofNat 16 (foldStar v)).toNat = foldStar v :=
  Nat.mod_eq_of_lt (Nat.lt_succ_of_le (foldStar_le v))

theorem ofNat_foldStar_sumEq (v : Nat) : SumEq (BitVec.ofNat 16 (foldStar v)).toNat v := by
  rw [ofNat_foldStar_toNat]
  exact foldStar_sumEq v

theorem plus16_sumEq (a b : Half) : SumEq (plus16 a b).toNat (a.toNat + b.toNat) := ofNat_foldStar_sumEq _

/-- The sum of two results needs one fold. -/
theorem plus16_toNat (a b : Half) : (plus16 a b).toNat = fold16 (a.toNat + b.toNat) := by
  have hsum : a.toNat + b.toNat ≤ 0x1FFFE := by
    have ha := a.isLt
    have hb := b.isLt
    omega
  rw [plus16, ofNat_foldStar_toNat]
  exact foldStar_eq_of_sumEq (fold16_sumEq _).symm (fold16_le_of_carry hsum)

theorem plus16_comm (a b : Half) : plus16 a b = plus16 b a := by
  rw [plus16, plus16, Nat.add_comm]

theorem plus16_assoc (a b c : Half) : plus16 (plus16 a b) c = plus16 a (plus16 b c) := by
  have hleft : SumEq (plus16 (plus16 a b) c).toNat (a.toNat + b.toNat + c.toNat) :=
    (plus16_sumEq _ c).trans ((plus16_sumEq a b).add (.refl _))
  have hright : SumEq (plus16 a (plus16 b c)).toNat (a.toNat + (b.toNat + c.toNat)) :=
    (plus16_sumEq a _).trans (SumEq.add (.refl _) (plus16_sumEq b c))
  rw [← Nat.add_assoc] at hright
  exact half_eq_of_sumEq (hleft.trans hright.symm)

theorem plus16_eq_zero_iff (a b : Half) : plus16 a b = 0 ↔ a = 0 ∧ b = 0 := by
  rw [half_eq_zero_iff_of_sumEq (plus16_sumEq a b), Nat.add_eq_zero_iff, toNat_eq_zero_iff,
    toNat_eq_zero_iff]

/-- Settles O34: +16 holds the sum of its operands up to `SumEq`. -/
theorem onesComplementAddition : Obligations.OnesComplementAddition :=
  fun a b c => ⟨plus16_toNat a b, plus16_comm a b, plus16_assoc a b c, plus16_eq_zero_iff a b⟩

/-! ### The byte swap (R129) -/

theorem swap16_swap16 (v : Half) : swap16 (swap16 v) = v := by
  have hv := v.isLt
  apply BitVec.eq_of_toNat_eq
  rw [swap16_toNat, swap16_toNat]
  omega

/-- Settles O36: a swap multiplies by 2^8 up to `SumEq`. -/
theorem byteSwapLaws : Obligations.ByteSwapLaws := by
  refine ⟨fun v => ⟨swap16_toNat v, swap16_swap16 v⟩, fun n => half_eq_of_sumEq ?_⟩
  have hswap : SumEq (swap16 (BitVec.ofNat 16 (foldStar n))).toNat (256 * n) :=
    (swap16_sumEq _).trans (ofNat_foldStar_sumEq n).mul_left
  exact (ofNat_foldStar_sumEq (2 ^ 8 * n)).trans hswap.symm

/-! ### The checksum (R124, R126, R128, R136) -/

/-- The representative of a sum in 16 bits: 0 for 0, and otherwise one of 1 to 0xFFFF. -/
theorem foldStar_closed_form (v : Nat) : foldStar v = if v = 0 then 0 else 1 + (v - 1) % 0xFFFF := by
  apply foldStar_eq_of_sumEq
  · unfold SumEq
    split <;> omega
  · split <;> omega

/-- Settles O33: RES holds the iterated fold of the word sum. -/
theorem checksumClosedForm : Obligations.ChecksumClosedForm := by
  intro bytes
  refine ⟨?_, ?_, (checksum_sumEq bytes).1⟩
  · rw [checksum_toNat, foldStar_closed_form]
  · rw [half_eq_zero_iff_of_sumEq (checksum_sumEq bytes)]
    exact weightedSum_eq_zero_iff true bytes

theorem checksum_append_even {xs : List Byte} (h : xs.length % 2 = 0) (ys : List Byte) :
    checksum (xs ++ ys) = plus16 (checksum xs) (checksum ys) := by
  have hwhole := checksum_sumEq (xs ++ ys)
  rw [wordSum_append_even h] at hwhole
  have hparts := (plus16_sumEq _ _).trans ((checksum_sumEq xs).add (checksum_sumEq ys))
  exact half_eq_of_sumEq (hwhole.trans hparts.symm)

/-- The swap gives the second part the weights of its odd place. -/
theorem swap16_checksum_sumEq (bytes : List Byte) :
    SumEq (swap16 (checksum bytes)).toNat (weightedSum false bytes) :=
  ((swap16_sumEq _).trans (checksum_sumEq bytes).mul_left).trans (weightedSum_not_sumEq false bytes)

theorem checksum_append_odd {xs : List Byte} (h : xs.length % 2 = 1) (ys : List Byte) :
    checksum (xs ++ ys) = plus16 (checksum xs) (swap16 (checksum ys)) := by
  have hwhole := checksum_sumEq (xs ++ ys)
  rw [wordSum_append_odd h] at hwhole
  have hparts := (plus16_sumEq _ _).trans ((checksum_sumEq xs).add (swap16_checksum_sumEq ys))
  exact half_eq_of_sumEq (hwhole.trans hparts.symm)

/-- Settles O35: after an even number of bytes the weights go on, after an odd number they are exchanged. -/
theorem checksumComposes : Obligations.ChecksumComposes :=
  fun _ b => ⟨fun heven => checksum_append_even heven b, fun hodd => checksum_append_odd hodd b⟩

/-- Settles O39: the vector of RFC 1071 evaluated. -/
theorem rfcVector : Obligations.RfcVector := by
  unfold Obligations.RfcVector
  decide

/-! ### The accumulator's addition (R131) -/

/-- Settles O37: 2^32 is 1 modulo 0xFFFF, so a carry added back keeps the residue. -/
theorem endAroundCarryLaws : Obligations.EndAroundCarryLaws := by
  intro a b
  obtain ⟨hmod, hzero⟩ := addEac_sumEq a b
  rw [Nat.add_eq_zero_iff, toNat_eq_zero_iff, toNat_eq_zero_iff, toNat_eq_zero_iff] at hzero
  exact ⟨addEac_toNat a b, hmod, hzero⟩

/-! ### What CSUM returns (R42, R130) -/

/-- Settles O58: each call returns the checksum of its own bytes, and they are the same bytes. -/
theorem resultDependsOnTheBytesAlone : Obligations.ResultDependsOnTheBytesAlone := by
  intro s s' a a' n h h' hc hc' hbytes
  obtain ⟨j, -, t, hrun, hfinal, hreads, hres, -⟩ := csumCallReturnsTheChecksum s a n h hc
  obtain ⟨j', -, t', hrun', hfinal', hreads', hres', -⟩ := csumCallReturnsTheChecksum s' a' n h' hc'
  rw [← hbytes] at hreads' hres'
  exact ⟨j, j', t, t', _, hrun, hrun', hreads, hreads', hres.trans hres'.symm, hfinal, hfinal'⟩

end Sys2Proof.Machine

/-! PROOFS. The family of 41_host_interface.md: what the host's turn runs, the register transactions, the commands, and
how long a transaction is held. -/

namespace Sys2Proof.Machine

/-! ### The host's turn (R92, R166) -/

/-- On the turn of a host that is not stuck, the transaction taken is decoded and run. -/
theorem step_host_of_take {s t : State} {rest : List Turn} {a : Access} (hrun : s.running)
    (hstuck : s.hostStuck = false) (hs : s.script = .host :: rest) (htake : (s.setScript rest).take = some (a, t)) :
    step s = exec (decode a) t := by
  rw [step_of_script hrun hs]
  simp [turnMove, hostTurn, hstuck, htake, Move.outcome]

/-- A host with nothing to take lets its turn pass. -/
theorem step_host_of_take_none {s : State} {rest : List Turn} (hrun : s.running) (hs : s.script = .host :: rest)
    (htake : (s.setScript rest).take = none) : step s = .next (s.setScript rest) := by
  rw [step_of_script hrun hs]
  simp [turnMove, hostTurn, htake, Move.outcome]

/-- Settles O1: by what `take` finds at the register interface or at the head of the queue. -/
theorem hostTurnRunsDecodedHead : Obligations.HostTurnRunsDecodedHead := by
  intro s rest hrun hstuck hs
  refine ⟨fun a hp => ?_, fun a q hp hq => ?_, fun hp hq => ?_⟩
  · exact step_host_of_take (t := s.setScript rest) hrun hstuck hs (by simp [State.take, hp])
  · exact step_host_of_take (t := (s.setScript rest).setFront a q) hrun hstuck hs (by simp [State.take, hp, hq])
  · exact step_host_of_take_none hrun hs (by simp [State.take, hp, hq])

/-- Settles O2: the placed transaction is the head of the queue, on the host's turn. -/
theorem fetchedWordRunsNext : Obligations.FetchedWordRunsNext := by
  intro s nbits w i hrun hword
  obtain ⟨a, ha, hi⟩ := Option.map_eq_some_iff.1 hword
  have hplaced : s.withFetchWord nbits w = s.present a := by rw [State.withFetchWord, ha]
  obtain ⟨-, hhead, -⟩ := hostTurnRunsDecodedHead (s.present a) s.script hrun rfl rfl
  refine ⟨a, ha, hi, ?_⟩
  rw [hplaced, hhead a s.queue rfl rfl, hi]
  rfl

/-- While BUSY = 1 a CTRL write or a RESULT read has no effect (R155, R162, R166). -/
theorem exec_of_holdable_busy {i : Instr} {s : State} (hi : holdable i = true) (hb : s.busy = true) :
    exec i s = .next s := by
  cases i with
  | wrCtrl | rdResult | nop | start | cmdRsvd2to3 | cmdRsvd4to7 | cmdRsvd8to15 => exact heldWhileBusy_of_busy hb _
  | _ => cases hi

/-- Settles O22: the host's turn runs the head alone, and a held transaction leaves the state it is run on as it is. -/
theorem heldTransactionStaysAtTheHead : Obligations.HeldTransactionStaysAtTheHead := by
  intro s rest hrun hstuck hs hb
  obtain ⟨hpending, hqueue, -⟩ := hostTurnRunsDecodedHead s rest hrun hstuck hs
  exact ⟨fun a hp hh => (hpending a hp).trans (exec_of_holdable_busy hh hb),
    fun a q hp hq hh => (hqueue a q hp hq).trans (exec_of_holdable_busy hh hb)⟩

/-! ### Register transactions (R151 to R154, R159 to R165) -/

/-- Settles O10: the four rows, decoded and run. -/
theorem bufferRegistersStoreAndReturn : Obligations.BufferRegistersStoreAndReturn :=
  fun _ v => ⟨decode_register rfl 0 rfl v, decode_register rfl 0 rfl v, decode_register rfl 1 rfl v,
    decode_register rfl 1 rfl v, rfl, rfl, rfl, rfl⟩

/-- Settles O11: RD CTRL replies 0 whatever the flags are. -/
theorem ctrlReadReturnsZero : Obligations.CtrlReadReturnsZero :=
  fun _ data => ⟨decode_register rfl 2 rfl data, rfl⟩

/-- The flags are read back from the STATUS word (R34, R160). -/
theorem statusWord_bits (s : State) :
    (statusWord s).getLsbD 0 = s.busy ∧ (statusWord s).getLsbD 1 = s.done ∧ (statusWord s).toNat < 4 ∧
      (statusWord s = 3 → s.busy = true ∧ s.done = true) := by
  unfold statusWord
  cases s.busy <;> cases s.done <;> decide

/-- Settles O12: the word returned is the two flags, which the invariant never lets hold together. -/
theorem statusReadReturnsFlags : Obligations.StatusReadReturnsFlags := by
  intro s data
  obtain ⟨hbusy, hdone, hlt, hboth⟩ := statusWord_bits s
  exact ⟨decode_register rfl 3 rfl data, statusWord s, rfl, hbusy, hdone, hlt,
    fun hinv h3 => hinv.flags_exclusive (hboth h3)⟩

/-- Settles O13: a write to a read-only register completes and does nothing else. -/
theorem readOnlyRegistersIgnoreWrites : Obligations.ReadOnlyRegistersIgnoreWrites :=
  fun _ v => ⟨decode_register rfl 3 rfl v, rfl, decode_register rfl 4 rfl v, rfl⟩

/-- Settles O14: held while BUSY = 1, and then a reply. -/
theorem resultReadWaitsThenReturns : Obligations.ResultReadWaitsThenReturns :=
  fun _ => ⟨fun hb => heldWhileBusy_of_busy hb _, fun hb => heldWhileBusy_of_idle hb _⟩

/-- Settles O15: every reserved row is the one rule `accessReserved`, for a read and for a write. -/
theorem reservedRegistersReadZeroIgnoreWrites : Obligations.ReservedRegistersReadZeroIgnoreWrites := by
  intro s index dir
  cases dir <;> exact ⟨rfl, rfl, rfl, rfl, rfl, rfl, rfl, rfl, rfl⟩

/-! ### What a command comes to (R155 to R158) -/

theorem bufferWraps_eq_false_iff (a n : Word) : bufferWraps a n = false ↔ a.toNat + n.toNat ≤ 2 ^ 32 := by
  rw [← Bool.not_eq_true, bufferWraps_iff, Nat.not_lt]

theorem startCommand_of_wraps {s : State} (h : bufferWraps s.addr s.len = true) :
    startCommand s = .fault (.bufferWrap s.addr s.len) := if_pos h

theorem startCommand_of_sideEffect {s : State} (h1 : bufferWraps s.addr s.len = false)
    (h2 : sideEffectBufferAt s.platform s.addr.toNat s.len.toNat = true) :
    startCommand s = .refused .sideEffectBuffer := by
  simp [startCommand, h1, h2, refuse]

/-- START is refused only with RF2, and only over a buffer that fits (R213; log entry 8). -/
theorem startCommand_refused {s : State} {r : Refusal} (h : startCommand s = .refused r) :
    bufferWraps s.addr s.len = false ∧ sideEffectBufferAt s.platform s.addr.toNat s.len.toNat = true ∧
      r = .sideEffectBuffer := by
  cases h1 : bufferWraps s.addr s.len with
  | true => cases (startCommand_of_wraps h1).symm.trans h
  | false =>
    cases h2 : sideEffectBufferAt s.platform s.addr.toNat s.len.toNat with
    | false => cases (startCommand_of_accepted h1 h2).symm.trans h
    | true =>
      cases (startCommand_of_sideEffect h1 h2).symm.trans h
      exact ⟨rfl, rfl, rfl⟩

theorem runCommand_start {op : BitVec 4} (h : op.toNat = 1) (s : State) : runCommand op s = startCommand s := by
  rw [runCommand, h]
  rfl

theorem runCommand_idle {op : BitVec 4} (h : op.toNat ≠ 1) (s : State) : runCommand op s = idleCommand s := by
  unfold runCommand
  split
  · contradiction
  · rfl

/-- OP as a number (R93). -/
theorem cmdOp_toNat_mod (w : Word) : (cmdOp w).toNat = w.toNat % 16 := by
  rw [cmdOp_toNat]
  exact Nat.and_two_pow_sub_one_eq_mod w.toNat 4

theorem decodeOp_start {op : BitVec 4} (h : op.toNat = 1) : decodeOp op = .start := by
  rw [decodeOp, h]
  rfl

/-- The command of an OP is held while BUSY = 1, and then acts as its OP says (R155 to R158). -/
theorem exec_decodeOp (op : BitVec 4) (s : State) : exec (decodeOp op) s = heldWhileBusy s (runCommand op s) := by
  by_cases h1 : op.toNat = 1
  · rw [decodeOp_start h1, runCommand_start h1]
    rfl
  · rw [runCommand_idle h1, decodeOp]
    split
    · rfl
    · contradiction
    · split_ifs <;> rfl

/-- Settles O17: the CTRL write and the CMD word run the same OP, which is DATA[3:0]. -/
theorem ctrlWriteIsItsCommand : Obligations.CtrlWriteIsItsCommand := by
  intro w s
  refine ⟨fun hb => heldWhileBusy_of_busy hb _, (exec_decodeOp (cmdOp w) s).symm, fun w' hw => ?_⟩
  have hop : cmdOp w' = cmdOp w := BitVec.eq_of_toNat_eq (by rw [cmdOp_toNat_mod, cmdOp_toNat_mod, hw])
  exact congrArg (fun op => heldWhileBusy s (runCommand op s)) hop

/-- Settles O18: an idle CTRL write is the command of its OP, and START is accepted where the buffer allows it. -/
theorem ctrlWriteCompletesWhenIdle : Obligations.CtrlWriteCompletesWhenIdle := by
  intro w s hb
  have hrun : exec (.wrCtrl w) s = runCommand (cmdOp w) s := heldWhileBusy_of_idle hb _
  rw [hrun, ← cmdOp_toNat_mod]
  refine ⟨fun hop => runCommand_idle hop s, fun hop hfit hside => ?_⟩
  rw [runCommand_start hop]
  exact startCommand_of_accepted ((bufferWraps_eq_false_iff _ _).2 hfit) hside

/-- Settles O19: each of these commands is `idleCommand`, held while BUSY = 1. -/
theorem idleCommandsChangeNothing : Obligations.IdleCommandsChangeNothing := by
  intro s op w i hi
  have hidle : exec i s = heldWhileBusy s (idleCommand s) := by
    rcases hi with hmem | ⟨hop, rfl⟩
    · simp only [List.mem_cons, List.not_mem_nil, or_false] at hmem
      rcases hmem with rfl | rfl | rfl | rfl <;> rfl
    · rw [← cmdOp_toNat_mod] at hop
      rw [← runCommand_idle hop]
      exact exec_decodeOp (cmdOp w) s
  rw [hidle]
  exact ⟨fun hb => heldWhileBusy_of_busy hb _, fun hb => heldWhileBusy_of_idle hb _⟩

/-- Settles O20: START's three answers; an empty buffer leaves nothing to read and an ACC that fits. -/
theorem startLatchesTheBuffer : Obligations.StartLatchesTheBuffer := by
  intro s
  refine ⟨fun w hw => ?_, fun hb => heldWhileBusy_of_busy hb _, fun hb hwrap => ?_, fun hb hfit hside => ?_⟩
  · exact decodeOp_start ((cmdOp_toNat_mod w).trans hw)
  · exact (heldWhileBusy_of_idle hb _).trans (startCommand_of_wraps ((bufferWraps_iff _ _).2 hwrap))
  · have haccept := startCommand_of_accepted ((bufferWraps_eq_false_iff _ _).2 hfit) hside
    refine ⟨_, (heldWhileBusy_of_idle hb _).trans haccept, rfl, fun hlen => ?_⟩
    have hrem : s.startAccepted.complete.eng.rem.toNat = 0 := congrArg BitVec.toNat hlen
    have hacc : s.startAccepted.complete.eng.acc.toNat = 0 := rfl
    exact ((engineKind_of_rem_zero hrem).resolve_left fun hfold => by omega).1

/-- Settles O21: START's conditions read as conditions on the buffer's bytes. -/
theorem startFaultsOrIsRefusedExactlyWhen : Obligations.StartFaultsOrIsRefusedExactlyWhen := by
  intro s hb
  have hrun : exec .start s = startCommand s := heldWhileBusy_of_idle hb _
  rw [hrun, ← bufferWraps_iff, ← bufferWraps_eq_false_iff, ← sideEffectBufferAt_iff]
  constructor
  · exact ⟨fun h => (startCommand_fault h).1, startCommand_of_wraps⟩
  · constructor
    · intro h
      obtain ⟨hfit, hside, -⟩ := startCommand_refused h
      exact ⟨hfit, hside⟩
    · rintro ⟨hfit, hside⟩
      exact startCommand_of_sideEffect hfit hside

/-! ### The refused transactions (R165) -/

theorem heldWhileBusy_refused {s : State} {o : Host.Outcome State Fault Refusal} {r : Refusal}
    (h : heldWhileBusy s o = .refused r) : s.busy = false ∧ o = .refused r := by
  cases hb : s.busy with
  | true => cases (heldWhileBusy_of_busy hb o).symm.trans h
  | false => exact ⟨rfl, (heldWhileBusy_of_idle hb o).symm.trans h⟩

/-- A CTRL write is never refused with RF1. -/
theorem exec_wrCtrl_ne_illegal (w : Word) (s : State) : exec (.wrCtrl w) s ≠ .refused .illegalAccess := by
  intro h
  obtain ⟨-, hrun⟩ := heldWhileBusy_refused h
  by_cases hop : (cmdOp w).toNat = 1
  · rw [runCommand_start hop] at hrun
    cases (startCommand_refused hrun).2.2
  · cases (runCommand_idle hop s).symm.trans hrun

/-- No register refuses a legal transaction with RF1 (R92 steps 3 and 4). -/
theorem exec_decodeIndex_ne_illegal (index : BitVec 10) (dir : Dir) (s : State) :
    exec (decodeIndex index dir) s ≠ .refused .illegalAccess := by
  by_cases h : 5 ≤ index.toNat
  · rw [exec_decodeIndex_reserved h]
    cases dir <;> exact nofun
  · obtain ⟨n, hn, rfl⟩ : ∃ n < 5, index = BitVec.ofNat 10 n := ⟨index.toNat, by omega, by simp⟩
    interval_cases n
    · cases dir <;> exact nofun
    · cases dir <;> exact nofun
    · cases dir with
      | read => exact nofun
      | write w => exact exec_wrCtrl_ne_illegal w s
    · cases dir <;> exact nofun
    · cases dir with
      | read =>
        intro hr
        cases (heldWhileBusy_refused hr).2
      | write w => exact nofun

/-- RF1 exactly on a wrong SIZE or a misaligned OFFSET. -/
theorem exec_decodeFields_illegal_iff (z : BitVec 2) (o : BitVec 12) (dir : Dir) (s : State) :
    exec (decodeFields z o dir) s = .refused .illegalAccess ↔ z ≠ 2 ∨ o.toNat % 4 ≠ 0 := by
  refine ⟨fun h => ?_, fun h => exec_decodeFields_illegal h dir s⟩
  by_contra hlegal
  obtain ⟨rfl, ho⟩ : z = 2 ∧ o.toNat % 4 = 0 := by simpa only [not_or, not_not] using hlegal
  obtain ⟨h0, h1⟩ := (offset_mod_four_iff o).1 ho
  rw [decodeFields_aligned h0 h1] at h
  exact exec_decodeIndex_ne_illegal _ dir s h

/-- Settles O16: the REFUSED rows, the decoder's two checks, and the mark that `record` sets. -/
theorem refusedTransactionsStop : Obligations.RefusedTransactionsStop :=
  fun s => ⟨fun _ _ => ⟨rfl, rfl, rfl, rfl, rfl⟩,
    fun d data => exec_decodeFields_illegal_iff (descSize d) (descOffset d) (descDir d data) s, rfl⟩

/-! ### A hold ends (R167, R252)

Only the operation's place in the buffer matters here: ACC may be anything. -/

/-- While bytes are left, PTR is the first of them, whatever ACC is (R187). -/
theorem Latched.ptr_toNat {a n : Word} {s : State} (h : Latched a n s) (hrem : 0 < s.eng.rem.toNat) :
    s.eng.ptr.toNat = a.toNat + (n.toNat - s.eng.rem.toNat) := by
  obtain ⟨-, hfits, hle, hptr, -⟩ := h
  omega

/-- A step that moves PTR and REM over m of the bytes left keeps what was latched. -/
theorem Latched.advance {a n : Word} {s : State} (h : Latched a n s) (v : Word) {m : Word}
    (hm : m.toNat ≤ s.eng.rem.toNat) : Latched a n (s.setEng (s.eng.advance v m)) := by
  obtain ⟨hbusy, hfits, hle, hptr, hswap⟩ := h
  have hrem : (s.eng.rem - m).toNat = s.eng.rem.toNat - m.toNat := by bv_omega
  refine ⟨hbusy, hfits, ?_, ?_, hswap⟩
  · simp only [State.setEng_eng, Engine.advance_rem, hrem]
    omega
  · simp only [State.setEng_eng, Engine.advance_rem, Engine.advance_ptr, BitVec.toNat_add, hrem]
    omega

/-- While bytes are left and all are readable, the engine's step reads some of them. -/
theorem Latched.read_step {a n : Word} {s : State} (h : Latched a n s)
    (hread : ∀ k < n.toNat, readable s.platform (a.toNat + k) = true) (hrem : 0 < s.eng.rem.toNat) :
    ∃ e, engineStep s = .next (s.setEng e) ∧ e.rem.toNat < s.eng.rem.toNat ∧ Latched a n (s.setEng e) := by
  have hall : ∀ m ≤ s.eng.rem.toNat, allReadable s.platform s.eng.ptr.toNat m = true := by
    intro m hm
    rw [allReadable_iff]
    intro k hk
    rw [h.ptr_toNat hrem, Nat.add_assoc]
    have hle := h.rem_le
    exact hread _ (by omega)
  rcases engineKind_cases s.eng with ⟨hk, _⟩ | ⟨hk, _, hfour⟩ | ⟨_, h0, _⟩ | ⟨_, h0, _⟩
  · refine ⟨_, engineStep_of_byte h.busy hk (hall 1 hrem), ?_, h.advance _ hrem⟩
    simp only [Engine.advance_rem]
    bv_omega
  · refine ⟨_, engineStep_of_word h.busy hk (hall 4 hfour), ?_, h.advance _ hfour⟩
    simp only [Engine.advance_rem]
    bv_omega
  · omega
  · omega

/-- Where FINISH is enabled, one step ends the operation. -/
theorem run_finish {s : State} (hrun : s.running) (hscript : s.script = []) (hb : s.busy = true)
    (hk : engineKind s.eng = .finish) : runSteps 1 s = .next (s.setRes s.eng.result).flagsFinished :=
  runSteps_succ_of_next ((step_engine hrun hscript hb).trans (engineStep_of_finish hb hk)) 0

/-- With no byte left, the engine is at its end after the folds that bring ACC below 2^16 and one FINISH. -/
theorem run_folds_finish {s : State} (hrun : s.running) (hscript : s.script = []) (hb : s.busy = true)
    (hrem : s.eng.rem.toNat = 0) {k : Nat} (hk : foldUpTo k s.eng.acc.toNat ≤ 0xFFFF) :
    ∃ j ≤ k + 1, ∃ e v, runSteps j s = .next ((s.setEng e).setRes v).flagsFinished := by
  induction k generalizing s with
  | zero =>
    obtain ⟨hfinish, _⟩ := (engineKind_of_rem_zero hrem).resolve_left fun hfold => Nat.not_lt.2 hk hfold.2
    exact ⟨1, Nat.le_refl 1, s.eng, _, run_finish hrun hscript hb hfinish⟩
  | succ k ih =>
    rcases engineKind_of_rem_zero hrem with ⟨hfold, hacc⟩ | ⟨hfinish, _⟩
    · rw [foldUpTo_succ_of_gt hacc, ← foldWord_toNat] at hk
      obtain ⟨j, hj, e, v, hsteps⟩ :=
        ih (s := s.setEng { s.eng with acc := foldWord s.eng.acc }) hrun hscript hb hrem hk
      refine ⟨j + 1, by omega, e, v, ?_⟩
      rw [runSteps_succ_of_next ((step_engine hrun hscript hb).trans (engineStep_of_fold hb hfold))]
      exact hsteps
    · exact ⟨1, by omega, s.eng, _, run_finish hrun hscript hb hfinish⟩

/-- From any point of an operation, at most one step for each byte left, two folds and FINISH. -/
theorem Latched.run_to_finish {a n : Word} {s : State} (h : Latched a n s) (hrun : s.running)
    (hscript : s.script = []) (hread : ∀ k < n.toNat, readable s.platform (a.toNat + k) = true) :
    ∃ j ≤ s.eng.rem.toNat + 3, ∃ e v, runSteps j s = .next ((s.setEng e).setRes v).flagsFinished := by
  induction hk : s.eng.rem.toNat using Nat.strong_induction_on generalizing s with
  | _ k ih =>
    subst hk
    rcases Nat.eq_zero_or_pos s.eng.rem.toNat with h0 | hpos
    · rw [h0]
      exact run_folds_finish hrun hscript h.busy h0 (foldUpTo_two_le s.eng.acc)
    · obtain ⟨e, hstep, hlt, hnext⟩ := h.read_step hread hpos
      obtain ⟨j, hj, e', v, hsteps⟩ := ih e.rem.toNat hlt hnext hrun hscript hread rfl
      refine ⟨j + 1, by omega, e', v, ?_⟩
      rw [runSteps_succ_of_next ((step_engine hrun hscript h.busy).trans hstep)]
      exact hsteps

/-- Settles O56: the engine runs to FINISH, and its steps touch neither the register interface nor the queue. -/
theorem holdAlwaysEnds : Obligations.HoldAlwaysEnds := by
  intro s a n hrun hscript h hread
  obtain ⟨j, hj, e, v, hsteps⟩ := h.run_to_finish hrun hscript hread
  exact ⟨j, hj, _, hsteps, rfl, rfl, rfl, rfl⟩

end Sys2Proof.Machine

/-! PROOFS. The family of 42_engine.md: which step is enabled, what each step does, which bytes it reads, and what a
whole operation comes to. -/

namespace Sys2Proof.Machine

/-! ### Which step is enabled (R181) -/

/-- Settles O25: the four conditions exclude each other, and each kind is enabled under its own. -/
theorem stepSelection : Obligations.StepSelection := by
  intro e
  rcases engineKind_cases e with ⟨hk, h⟩ | ⟨hk, h⟩ | ⟨hk, h⟩ | ⟨hk, h⟩
  all_goals
    simp only [hk, reduceCtorEq, true_iff, false_iff]
    omega

/-- FOLD and FINISH are enabled only when no byte is left (R181). -/
theorem rem_eq_zero_of_fold_or_finish {e : Engine} (h : engineKind e = .fold ∨ engineKind e = .finish) :
    e.rem.toNat = 0 := by
  obtain ⟨-, -, hfold, hfinish⟩ := stepSelection e
  exact h.elim (fun hk => (hfold.1 hk).1) fun hk => (hfinish.1 hk).1

/-! ### How many bytes a step reads (R64, R180) -/

theorem engineReadSize_of_idle {s : State} (hb : s.busy = false) : engineReadSize s = 0 := by
  simp [engineReadSize, hb]

theorem engineReadSize_of_byte {s : State} (hb : s.busy = true) (hk : engineKind s.eng = .byte) :
    engineReadSize s = 1 := by
  simp [engineReadSize, hb, hk]

theorem engineReadSize_of_word {s : State} (hb : s.busy = true) (hk : engineKind s.eng = .word) :
    engineReadSize s = 4 := by
  simp [engineReadSize, hb, hk]

theorem engineReadSize_of_rem_zero {s : State} (h : s.eng.rem.toNat = 0) : engineReadSize s = 0 := by
  unfold engineReadSize
  rcases engineKind_of_rem_zero h with ⟨hk, -⟩ | ⟨hk, -⟩ <;> simp [hk]

/-- A step of a running operation with bytes left is a BYTE step or an aligned WORD step, and reads no more than what
is left. -/
theorem engineReadSize_of_rem_pos {s : State} (hb : s.busy = true) (hrem : 0 < s.eng.rem.toNat) :
    (engineKind s.eng = .byte ∧ engineReadSize s = 1) ∨
      (engineKind s.eng = .word ∧ engineReadSize s = 4 ∧ s.eng.ptr.toNat % 4 = 0 ∧ 4 ≤ s.eng.rem.toNat) := by
  rcases engineKind_cases s.eng with ⟨hk, _⟩ | ⟨hk, haligned, hfour⟩ | ⟨_, h0, _⟩ | ⟨_, h0, _⟩
  · exact .inl ⟨hk, engineReadSize_of_byte hb hk⟩
  · exact .inr ⟨hk, engineReadSize_of_word hb hk, haligned, hfour⟩
  · omega
  · omega

/-! ### The engine's turn (R180) -/

theorem step_engine_turn {s : State} {rest : List Turn} (hrun : s.running) (hs : s.script = .engine :: rest) :
    step s = engineStep (s.setScript rest) :=
  step_of_script hrun hs

/-- The engine's turn, whether the script or the order of log entry 1 gives it. -/
theorem step_of_nextTurn_engine {s : State} (hrun : s.running) (hn : s.nextTurn.1 = .engine) :
    step s = engineStep (s.setScript s.script.tail) := by
  rw [step_of_running hrun, hn, State.nextTurn_snd]
  rfl

theorem State.stepReadAddresses_of_engine {s : State} (hn : s.nextTurn.1 = .engine) :
    s.stepReadAddresses = engineReadAddresses s := by
  rw [State.stepReadAddresses, hn]

theorem State.stepReadBytes_of_engine {s : State} (hn : s.nextTurn.1 = .engine) :
    s.stepReadBytes = engineReadBytes s := by
  rw [State.stepReadBytes, hn]

/-- No other agent's turn reads through the master port. -/
theorem State.stepReads_of_ne_engine {s : State} (hn : s.nextTurn.1 ≠ .engine) :
    s.stepReadAddresses = [] ∧ s.stepReadBytes = [] := by
  unfold State.stepReadAddresses State.stepReadBytes
  cases ht : s.nextTurn.1 with
  | engine => exact absurd ht hn
  | _ => exact ⟨rfl, rfl⟩

theorem State.stepReadAddresses_of_size_zero {s : State} {rest : List Turn} (hs : s.script = .engine :: rest)
    (h : engineReadSize s = 0) : s.stepReadAddresses = [] := by
  have hn : s.nextTurn.1 = .engine := by rw [State.nextTurn_cons hs]
  rw [State.stepReadAddresses_of_engine hn, engineReadAddresses, h]
  rfl

theorem engineStep_of_idle {s : State} (hb : s.busy = false) : engineStep s = .next s := by
  simp [engineStep, hb]

/-- Settles O24: the engine's turn of an idle block only uses the turn up. -/
theorem idleEngineHasNoStep : Obligations.IdleEngineHasNoStep := by
  intro s rest hrun hs hb
  exact ⟨(step_engine_turn hrun hs).trans (engineStep_of_idle hb),
    State.stepReadAddresses_of_size_zero hs (engineReadSize_of_idle hb)⟩

/-! ### What each step does (R182 to R185) -/

/-- A BYTE or WORD step over a byte that is not readable is MF1 at PTR (R182, R183). -/
theorem engineStep_of_unreadable {s : State} (hb : s.busy = true) (hrem : 0 < s.eng.rem.toNat)
    (hread : allReadable s.platform s.eng.ptr.toNat (engineReadSize s) = false) :
    engineStep s = .fault (.unreadable s.eng.ptr) := by
  rcases engineReadSize_of_rem_pos hb hrem with ⟨hk, hsize⟩ | ⟨hk, hsize, -⟩
  · rw [hsize] at hread
    simp [engineStep, hb, hk, byteStep, hread, raiseFault]
  · rw [hsize] at hread
    simp [engineStep, hb, hk, wordStep, hread, raiseFault]

theorem allReadable_eq_false_iff (p : Platform) (a n : Nat) :
    allReadable p a n = false ↔ ∃ k < n, readable p (a + k) = false := by
  rw [← Bool.not_eq_true, allReadable_iff]
  simp

theorem allReadable_one (p : Platform) (a : Nat) : allReadable p a 1 = readable p a := by
  simp [allReadable]

/-- Settles O26: the byte's weight is that of its address parity, and its read is the only one. -/
theorem byteStep_spec : Obligations.ByteStep := by
  intro s rest hrun hs hb hrem hkind
  have hk : engineKind s.eng = .byte := (stepSelection s.eng).1.2 ⟨hrem, hkind⟩
  rw [step_engine_turn hrun hs]
  constructor
  · intro hread
    refine ⟨byteAddend s.eng.ptr (s.mem.read s.eng.ptr.toNat), ?_, ?_⟩
    · rw [byteAddend_toNat, isOdd_eq]
      rcases Nat.mod_two_eq_zero_or_one s.eng.ptr.toNat with h | h <;> simp [h]
    · exact engineStep_of_byte (s := s.setScript rest) hb hk ((allReadable_one _ _).trans hread)
  · intro hread
    refine engineStep_of_unreadable (s := s.setScript rest) hb hrem ?_
    rw [engineReadSize_of_byte (s := s.setScript rest) hb hk, allReadable_one]
    exact hread

/-- Settles O27: the word is its four bytes, the lowest-addressed one most significant. -/
theorem wordStep_spec : Obligations.WordStep := by
  intro s rest hrun hs hb hfour haligned
  have hk : engineKind s.eng = .word := (stepSelection s.eng).2.1.2 ⟨hfour, haligned⟩
  rw [step_engine_turn hrun hs]
  constructor
  · intro hread
    refine ⟨s.mem.readWord s.eng.ptr.toNat, be32_toNat _ _ _ _, ?_⟩
    exact engineStep_of_word (s := s.setScript rest) hb hk ((allReadable_iff _ _ _).2 hread)
  · intro hread
    refine engineStep_of_unreadable (s := s.setScript rest) hb (Nat.lt_of_lt_of_le (by decide) hfour) ?_
    rw [engineReadSize_of_word (s := s.setScript rest) hb hk]
    exact (allReadable_eq_false_iff _ _ _).2 hread

/-- Settles O28: with no byte left the step is a FOLD or a FINISH, by the size of ACC. -/
theorem foldAndFinishSteps : Obligations.FoldAndFinishSteps := by
  intro s rest hrun hs hb hrem
  obtain ⟨-, -, hfold, hfinish⟩ := stepSelection s.eng
  have hone : fold16 s.eng.acc.toNat ≤ 0x1FFFE := fold16_le_of_word (Nat.le_of_lt_succ s.eng.acc.isLt)
  refine ⟨State.stepReadAddresses_of_size_zero hs (engineReadSize_of_rem_zero hrem), hone, fold16_le_of_carry hone,
    fun hacc => ?_, fun hacc => ?_⟩
  · rw [step_engine_turn hrun hs]
    exact engineStep_of_fold (s := s.setScript rest) hb (hfold.2 ⟨hrem, hacc⟩)
  · rw [step_engine_turn hrun hs, ← BitVec.setWidth_eq_extractLsb' (by decide)]
    exact engineStep_of_finish (s := s.setScript rest) hb (hfinish.2 ⟨hrem, hacc⟩)

/-! ### The reads of an operation under every interleaving (R187, R188) -/

/-- The next reads go on where the bytes read so far end, and stay inside the buffer. -/
theorem Summing.next_reads {a n : Word} {bytes : List Byte} {s : State} (h : Summing a n bytes s) :
    engineReadAddresses s = List.range' (a.toNat + bytes.length) (engineReadSize s) ∧
      bytes.length + engineReadSize s ≤ n.toNat ∧
      (engineReadSize s = 0 ∨ engineReadSize s = 1 ∨
        (engineReadSize s = 4 ∧ (a.toNat + bytes.length) % 4 = 0)) := by
  have hcount := h.count
  rcases Nat.eq_zero_or_pos s.eng.rem.toNat with h0 | hpos
  · rw [engineReadAddresses, engineReadSize_of_rem_zero h0]
    exact ⟨rfl, by omega, .inl rfl⟩
  · rw [engineReadAddresses, h.ptr_toNat hpos]
    refine ⟨rfl, ?_⟩
    rcases engineReadSize_of_rem_pos h.busy hpos with ⟨-, hsize⟩ | ⟨-, hsize, haligned, hfour⟩
    · exact ⟨by omega, .inr (.inl hsize)⟩
    · rw [h.ptr_toNat hpos] at haligned
      exact ⟨by omega, .inr (.inr ⟨hsize, haligned⟩)⟩

/-- Settles O52: only the engine's turn reads, and its reads follow the bytes read so far. -/
theorem readsEachByteOnceInOrder : Obligations.ReadsEachByteOnceInOrder := by
  intro s a n bytes h
  by_cases hn : s.nextTurn.1 = .engine
  · obtain ⟨haddresses, hbound, hsize⟩ := h.next_reads
    have hlength : s.stepReadAddresses.length = engineReadSize s := by
      rw [State.stepReadAddresses_of_engine hn, engineReadAddresses, List.length_range']
    rw [hlength, State.stepReadAddresses_of_engine hn, State.stepReadBytes_of_engine hn]
    exact ⟨haddresses, hbound, hsize, Memory.readBytes_length _ _ _⟩
  · obtain ⟨haddresses, hbytes⟩ := State.stepReads_of_ne_engine hn
    rw [haddresses, hbytes]
    have hcount := h.count
    exact ⟨rfl, Nat.le.intro hcount, .inl rfl, rfl⟩

/-- What is left of an operation is in the engine and BUSY alone. -/
theorem Summing.of_same_engine {a n : Word} {bytes : List Byte} {s t : State} (h : Summing a n bytes s)
    (heng : t.eng = s.eng) (hbusy : t.busy = s.busy) : Summing a n bytes t := by
  obtain ⟨⟨hb, hfits, hle, hptr, hswap⟩, hcount, hresidue, hzero⟩ := h
  rw [← heng] at hle hptr hswap hcount hresidue hzero
  exact ⟨⟨hbusy.trans hb, hfits, hle, hptr, hswap⟩, hcount, hresidue, hzero⟩

/-- An engine step adds the bytes it reads, and FINISH comes to the atomic operation over all of them (R185). -/
theorem Summing.of_engineStep {a n : Word} {bytes : List Byte} {s t : State} (h : Summing a n bytes s)
    (hstep : engineStep s = .next t) :
    Summing a n (bytes ++ engineReadBytes s) t ∨ (t = s.atomicOperation bytes ∧ bytes.length = n.toNat) := by
  rcases engineStep_next hstep with ⟨hb, _⟩ | ⟨hb, hk, _, rfl⟩ | ⟨hb, hk, _, rfl⟩ | ⟨_, hk, rfl⟩ | ⟨_, hk, rfl⟩
  · cases hb.symm.trans h.busy
  · rw [engineReadBytes, engineReadSize_of_byte hb hk]
    exact .inl (h.advance rfl Nat.one_pos (one_le_rem_of_byte hk) (byteAddend_sumEq _ _))
  · rw [engineReadBytes, engineReadSize_of_word hb hk]
    have heven : isOdd s.eng.ptr = false := by
      have haligned := ((stepSelection s.eng).2.1.1 hk).2
      rw [isOdd_eq, decide_eq_false_iff_not]
      omega
    refine .inl (h.advance rfl (by decide) (four_le_rem_of_word hk) ?_)
    rw [heven]
    exact readWord_sumEq _ _
  · rw [engineReadBytes, engineReadSize_of_rem_zero (rem_eq_zero_of_fold_or_finish (.inl hk)), Memory.readBytes,
      List.append_nil]
    exact .inl h.fold
  · have hcount := h.count
    rw [rem_eq_zero_of_fold_or_finish (.inr hk)] at hcount
    exact .inr ⟨Host.Outcome.next.inj (hstep.symm.trans (h.finish_step hk)), hcount⟩

/-- While BUSY = 1 no transaction touches the engine, and BUSY stays (R246). -/
theorem exec_next_of_busy {i : Instr} {s t : State} (h : exec i s = .next t) (hb : s.busy = true) :
    t.eng = s.eng ∧ t.busy = s.busy := by
  rcases exec_next h with ⟨_, _, rfl⟩ | ⟨_, _, rfl⟩ | ⟨_, _, rfl⟩ | ⟨_, rfl⟩ | rfl | ⟨_, hidle, _⟩
  case inr.inr.inr.inr.inr => cases hb.symm.trans hidle
  all_goals exact ⟨rfl, rfl⟩

/-- While BUSY = 1 no turn but the engine's own and a reset touches the engine or BUSY (R75, R246). -/
theorem step_next_of_ne_engine {s t : State} (hb : s.busy = true) (hn : s.nextTurn.1 ≠ .engine)
    (h : step s = .next t) :
    (t.eng = s.eng ∧ t.busy = s.busy) ∨ ((∃ b, s.nextTurn.1 = .reset b) ∧ t.busy = false) := by
  rcases step_next_block h with ⟨_, a, q, v, _, hexec⟩ | ⟨hengine, _⟩ | ⟨b, hreset, rfl⟩ | ⟨q, m, c, rfl⟩
  · have hsame := exec_next_of_busy hexec hb
    exact .inl hsame
  · exact absurd hengine hn
  · exact .inr ⟨⟨b, hreset⟩, rfl⟩
  · exact .inl ⟨rfl, rfl⟩

/-- Everything a step under any interleaving can do to an operation: it goes on with the bytes the step read, it is
abandoned by a reset, or it ends as the atomic operation over all the bytes read. -/
theorem Summing.of_step {a n : Word} {bytes : List Byte} {s t : State} (h : Summing a n bytes s)
    (hstep : step s = .next t) :
    Summing a n (bytes ++ s.stepReadBytes) t ∨ ((∃ b, s.nextTurn.1 = .reset b) ∧ t.busy = false) ∨
      (t.busy = false ∧ t.res = checksum bytes ∧ t.done = true ∧ bytes.length = n.toNat) := by
  by_cases hn : s.nextTurn.1 = .engine
  · rw [step_of_nextTurn_engine (step_next_running hstep) hn] at hstep
    have hscript : Summing a n bytes (s.setScript s.script.tail) := h.of_same_engine rfl rfl
    rw [State.stepReadBytes_of_engine hn]
    rcases hscript.of_engineStep hstep with hnext | ⟨rfl, hlength⟩
    · exact .inl hnext
    · exact .inr (.inr ⟨rfl, rfl, rfl, hlength⟩)
  · rcases step_next_of_ne_engine h.busy hn hstep with ⟨heng, hbusy⟩ | hreset
    · rw [(State.stepReads_of_ne_engine hn).2, List.append_nil]
      exact .inl (h.of_same_engine heng hbusy)
    · exact .inr (.inl hreset)

/-- Settles O53: START begins the operation, every step carries the bytes read on, and FINISH writes their checksum. -/
theorem resultIsChecksumOfBytesAsRead : Obligations.ResultIsChecksumOfBytesAsRead := by
  refine ⟨fun s t hb hstart => ?_, fun s t a n bytes h hstep hb => ?_, fun s t a n bytes h hstep hb => ?_⟩
  · obtain ⟨hfit, -, rfl⟩ := startCommand_next ((heldWhileBusy_of_idle hb _).symm.trans hstart)
    exact (Summing.startAccepted ((bufferWraps_eq_false_iff _ _).1 hfit)).of_same_engine rfl rfl
  · rcases h.of_step hstep with hnext | ⟨_, hidle⟩ | ⟨hidle, _⟩
    · exact hnext
    · cases hidle.symm.trans hb
    · cases hidle.symm.trans hb
  · rcases h.of_step hstep with hnext | ⟨hreset, _⟩ | ⟨_, hdone⟩
    · cases hb.symm.trans hnext.busy
    · exact .inl hreset
    · exact .inr hdone

/-! ### Runs of the engine by step kind (R186) -/

/-- The engine's run from one state to another with these step kinds enabled one after the other. -/
inductive EngineRun : List StepKind → State → State → Prop
  | nil (s : State) : EngineRun [] s s
  | cons {s t u : State} {kinds : List StepKind} (hb : s.busy = true) (hstep : step s = .next t)
      (hrest : EngineRun kinds t u) : EngineRun (engineKind s.eng :: kinds) s u

theorem EngineRun.append {kinds kinds' : List StepKind} {s t u : State} (h : EngineRun kinds s t)
    (h' : EngineRun kinds' t u) : EngineRun (kinds ++ kinds') s u := by
  induction h with
  | nil s => exact h'
  | cons hb hstep _ ih => exact .cons hb hstep (ih h')

/-- The steps of such a run are that many steps of the machine. -/
theorem EngineRun.runSteps_length {kinds : List StepKind} {s u : State} (h : EngineRun kinds s u) :
    runSteps kinds.length s = .next u := by
  induction h with
  | nil s => rfl
  | cons hb hstep _ ih => exact (runSteps_succ_of_next hstep _).trans ih

/-- Before its j-th step BUSY = 1 and the j-th kind is enabled. -/
theorem EngineRun.kind_at {kinds : List StepKind} {s u : State} (h : EngineRun kinds s u) (j : Nat)
    (hj : j < kinds.length) : ∃ v, runSteps j s = .next v ∧ v.busy = true ∧ engineKind v.eng = kinds[j] := by
  induction h generalizing j with
  | nil s => cases hj
  | @cons s t u kinds hb hstep hrest ih =>
    cases j with
    | zero => exact ⟨s, rfl, hb, rfl⟩
    | succ j =>
      obtain ⟨v, hrun, hv⟩ := ih j (Nat.lt_of_succ_lt_succ hj)
      exact ⟨v, (runSteps_succ_of_next hstep j).trans hrun, hv⟩

/-! ### An operation that nothing comes between (R186, R189) -/

/-- A step that reads moves REM over the bytes it reads and keeps what was latched. -/
theorem Latched.reading_step {a n : Word} {s : State} (h : Latched a n s) (hrem : 0 < s.eng.rem.toNat)
    (hread : allReadable s.platform s.eng.ptr.toNat (engineReadSize s) = true) :
    ∃ e, engineStep s = .next (s.setEng e) ∧ e.rem.toNat + engineReadSize s = s.eng.rem.toNat ∧
      Latched a n (s.setEng e) := by
  rcases engineReadSize_of_rem_pos h.busy hrem with ⟨hk, hsize⟩ | ⟨hk, hsize, -, hfour⟩
  · rw [hsize] at hread ⊢
    refine ⟨_, engineStep_of_byte h.busy hk hread, ?_, h.advance _ hrem⟩
    simp only [Engine.advance_rem]
    bv_omega
  · rw [hsize] at hread ⊢
    refine ⟨_, engineStep_of_word h.busy hk hread, ?_, h.advance _ hfour⟩
    simp only [Engine.advance_rem]
    bv_omega

/-- A running operation over readable bytes with an empty script. -/
structure Undisturbed (a n : Word) (s : State) : Prop extends Latched a n s where
  running : s.running
  script : s.script = []
  bytes_readable : ∀ k < n.toNat, readable s.platform (a.toNat + k) = true

theorem Undisturbed.reading_step {a n : Word} {s : State} (h : Undisturbed a n s) (hrem : 0 < s.eng.rem.toNat) :
    ∃ t, step s = .next t ∧ t.eng.rem.toNat + engineReadSize s = s.eng.rem.toNat ∧ Undisturbed a n t := by
  have hread : allReadable s.platform s.eng.ptr.toNat (engineReadSize s) = true := by
    rw [allReadable_iff]
    intro k hk
    rw [h.ptr_toNat hrem, Nat.add_assoc]
    have hle := h.rem_le
    have hsize := engineReadSize_of_rem_pos h.busy hrem
    exact h.bytes_readable _ (by omega)
  obtain ⟨e, hstep, hcount, hnext⟩ := h.toLatched.reading_step hrem hread
  exact ⟨_, (step_engine h.running h.script h.busy).trans hstep, hcount,
    ⟨hnext, h.running, h.script, h.bytes_readable⟩⟩

/-- BYTE steps: each of the next m bytes is not at an aligned address, or is one of the last three. -/
theorem Undisturbed.run_bytes {a n : Word} {s : State} (h : Undisturbed a n s) {r m : Nat}
    (hrem : s.eng.rem.toNat = r + m)
    (hkind : ∀ i < m, (a.toNat + n.toNat - (r + i + 1)) % 4 ≠ 0 ∨ r + i + 1 < 4) :
    ∃ t, EngineRun (List.replicate m .byte) s t ∧ Undisturbed a n t ∧ t.eng.rem.toNat = r := by
  induction m generalizing s with
  | zero => exact ⟨s, .nil s, h, hrem⟩
  | succ m ih =>
    have hlast := hkind m (Nat.lt_succ_self m)
    have hk : engineKind s.eng = .byte := by
      have hptr := h.ptr_eq
      rw [(stepSelection s.eng).1]
      omega
    obtain ⟨t, hstep, hcount, ht⟩ := h.reading_step (by omega)
    rw [engineReadSize_of_byte h.busy hk] at hcount
    obtain ⟨u, hrun, hu⟩ := ih ht (by omega) fun i hi => hkind i (by omega)
    refine ⟨u, ?_, hu⟩
    rw [List.replicate_succ, ← hk]
    exact .cons h.busy hstep (hk ▸ hrun)

/-- WORD steps: the next 4 m bytes begin and end at aligned addresses. -/
theorem Undisturbed.run_words {a n : Word} {s : State} (h : Undisturbed a n s) {r m : Nat}
    (hrem : s.eng.rem.toNat = r + 4 * m) (haligned : 0 < m → (a.toNat + n.toNat - r) % 4 = 0) :
    ∃ t, EngineRun (List.replicate m .word) s t ∧ Undisturbed a n t ∧ t.eng.rem.toNat = r := by
  induction m generalizing s with
  | zero => exact ⟨s, .nil s, h, hrem⟩
  | succ m ih =>
    have hend := haligned (Nat.succ_pos m)
    have hk : engineKind s.eng = .word := by
      have hptr := h.ptr_eq
      have hle := h.rem_le
      rw [(stepSelection s.eng).2.1]
      omega
    obtain ⟨t, hstep, hcount, ht⟩ := h.reading_step (by omega)
    rw [engineReadSize_of_word h.busy hk] at hcount
    obtain ⟨u, hrun, hu⟩ := ih ht (by omega) fun _ => hend
    refine ⟨u, ?_, hu⟩
    rw [List.replicate_succ, ← hk]
    exact .cons h.busy hstep (hk ▸ hrun)

theorem Undisturbed.fold {a n : Word} {s : State} (h : Undisturbed a n s) :
    Undisturbed a n (s.setEng { s.eng with acc := foldWord s.eng.acc }) := { h with }

/-- FOLD steps: as many as bring ACC below 2^16. -/
theorem Undisturbed.run_folds {a n : Word} {s : State} (h : Undisturbed a n s) (hrem : s.eng.rem.toNat = 0) {k : Nat}
    (hk : foldUpTo k s.eng.acc.toNat ≤ 0xFFFF) :
    ∃ f ≤ k, ∃ t, EngineRun (List.replicate f .fold) s t ∧ Undisturbed a n t ∧ engineKind t.eng = .finish := by
  induction k generalizing s with
  | zero =>
    obtain ⟨hfinish, _⟩ := (engineKind_of_rem_zero hrem).resolve_left fun hfold => Nat.not_lt.2 hk hfold.2
    exact ⟨0, Nat.le_refl 0, s, .nil s, h, hfinish⟩
  | succ k ih =>
    rcases engineKind_of_rem_zero hrem with ⟨hfold, hacc⟩ | ⟨hfinish, _⟩
    · rw [foldUpTo_succ_of_gt hacc, ← foldWord_toNat] at hk
      obtain ⟨f, hf, t, hrun, ht⟩ := ih h.fold hrem hk
      refine ⟨f + 1, Nat.succ_le_succ hf, t, ?_, ht⟩
      rw [List.replicate_succ, ← hfold]
      exact .cons h.busy ((step_engine h.running h.script h.busy).trans (engineStep_of_fold h.busy hfold))
        (hfold ▸ hrun)
    · exact ⟨0, Nat.zero_le _, s, .nil s, h, hfinish⟩

/-- FINISH ends the operation. -/
theorem Undisturbed.run_finish {a n : Word} {s : State} (h : Undisturbed a n s) (hk : engineKind s.eng = .finish) :
    ∃ t, EngineRun [.finish] s t ∧ t.busy = false ∧ t.done = true := by
  refine ⟨(s.setRes s.eng.result).flagsFinished, ?_, rfl, rfl⟩
  rw [← hk]
  exact .cons h.busy ((step_engine h.running h.script h.busy).trans (engineStep_of_finish h.busy hk)) (.nil _)

/-- The bytes before the first aligned address: the head BYTE steps (R186). -/
def headSteps (a n : Word) : Nat := min n.toNat ((4 - a.toNat % 4) % 4)

/-- The step kinds of an operation with f folds, in order (R186). -/
def operationKinds (a n : Word) (f : Nat) : List StepKind :=
  List.replicate (headSteps a n) .byte ++ (List.replicate ((n.toNat - headSteps a n) / 4) .word ++
    (List.replicate ((n.toNat - headSteps a n) % 4) .byte ++ (List.replicate f .fold ++ [.finish])))

theorem operationKinds_length (a n : Word) (f : Nat) :
    (operationKinds a n f).length =
      headSteps a n + (n.toNat - headSteps a n) / 4 + (n.toNat - headSteps a n) % 4 + f + 1 := by
  simp only [operationKinds, List.length_append, List.length_replicate, List.length_singleton]
  omega

/-- The bounds of the phases, counted from the operation's first step. -/
theorem operationKinds_getElem {a n : Word} {f j : Nat} (hj : j < (operationKinds a n f).length) :
    (operationKinds a n f)[j] =
      let h := headSteps a n
      let w := (n.toNat - h) / 4
      let b := (n.toNat - h) % 4
      if j < h then .byte else if j < h + w then .word else if j < h + w + b then .byte
        else if j < h + w + b + f then .fold else .finish := by
  simp only [operationKinds, List.getElem_append, List.getElem_replicate, List.length_replicate,
    List.getElem_singleton]
  grind

/-- From the first step of an operation to its last (R186). -/
theorem Undisturbed.run_operation {a n : Word} {s : State} (h : Undisturbed a n s)
    (hrem : s.eng.rem.toNat = n.toNat) :
    ∃ f ≤ 2, ∃ t, EngineRun (operationKinds a n f) s t ∧ t.busy = false ∧ t.done = true := by
  have hhead : headSteps a n = min n.toNat ((4 - a.toNat % 4) % 4) := rfl
  unfold operationKinds
  generalize headSteps a n = head at hhead ⊢
  obtain ⟨s₁, hrun₁, h₁, hrem₁⟩ :=
    h.run_bytes (r := n.toNat - head) (m := head) (by omega) (by omega)
  obtain ⟨s₂, hrun₂, h₂, hrem₂⟩ :=
    h₁.run_words (r := (n.toNat - head) % 4) (m := (n.toNat - head) / 4) (by omega) (by omega)
  obtain ⟨s₃, hrun₃, h₃, hrem₃⟩ :=
    h₂.run_bytes (r := 0) (m := (n.toNat - head) % 4) (by omega) (by omega)
  obtain ⟨f, hf, s₄, hrun₄, h₄, hfinish⟩ := h₃.run_folds hrem₃ (foldUpTo_two_le s₃.eng.acc)
  obtain ⟨t, hrun₅, ht⟩ := h₄.run_finish hfinish
  exact ⟨f, hf, t, hrun₁.append (hrun₂.append (hrun₃.append (hrun₄.append hrun₅))), ht⟩

/-- An accepted START has read no byte of its buffer (R157, R188). -/
theorem Alone.summing {a n : Word} {s : State} (h : Alone a n s) (hfit : a.toNat + n.toNat ≤ 2 ^ 32) :
    Summing a n [] s :=
  (Summing.startAccepted (s := { s with addr := a, len := n }) hfit).of_same_engine h.eng h.busy

/-- Settles O54: the run of the operation by step kind, read off at each step. -/
theorem operationStepCount : Obligations.OperationStepCount := by
  intro s a n h hfit hread
  have hundisturbed : Undisturbed a n s := ⟨(h.summing hfit).toLatched, h.running, h.script, hread⟩
  obtain ⟨f, hf, t, hrun, ht⟩ := hundisturbed.run_operation (by rw [h.eng])
  have hlength := operationKinds_length a n f
  have hhead : headSteps a n = min n.toNat ((4 - a.toNat % 4) % 4) := rfl
  rw [← hhead]
  refine ⟨f, hf, by omega, fun j hj => ?_, t, hlength ▸ hrun.runSteps_length, ht⟩
  obtain ⟨u, hsteps, hb, hk⟩ := hrun.kind_at j (by omega)
  exact ⟨u, hsteps, hb, hk.trans (operationKinds_getElem _)⟩

/-- A byte still to be read that is not readable stops the run with MF1 inside the buffer (R189). -/
theorem Latched.run_to_fault {a n : Word} {s : State} (h : Latched a n s) (hrun : s.running) (hscript : s.script = [])
    {k : Nat} (hk : k < n.toNat) (hleft : n.toNat - s.eng.rem.toNat ≤ k)
    (hunreadable : readable s.platform (a.toNat + k) = false) :
    ∃ (j : Nat) (address : Word), runSteps j s = .fault (.unreadable address) ∧
      a.toNat ≤ address.toNat ∧ address.toNat < a.toNat + n.toNat := by
  induction hr : s.eng.rem.toNat using Nat.strong_induction_on generalizing s with
  | _ r ih =>
    subst hr
    have hpos : 0 < s.eng.rem.toNat := by omega
    have hptr := h.ptr_toNat hpos
    have hle := h.rem_le
    cases hread : allReadable s.platform s.eng.ptr.toNat (engineReadSize s) with
    | false =>
      have hfault := (step_engine hrun hscript h.busy).trans (engineStep_of_unreadable h.busy hpos hread)
      exact ⟨1, s.eng.ptr, runSteps_succ_of_fault hfault 0, by omega, by omega⟩
    | true =>
      obtain ⟨e, hstep, hcount, hnext⟩ := h.reading_step hpos hread
      have hsize := engineReadSize_of_rem_pos h.busy hpos
      have hafter : n.toNat - e.rem.toNat ≤ k := by
        by_contra hpast
        have hreadable := (allReadable_iff _ _ _).1 hread (a.toNat + k - s.eng.ptr.toNat) (by omega)
        rw [show s.eng.ptr.toNat + (a.toNat + k - s.eng.ptr.toNat) = a.toNat + k by omega, hunreadable] at hreadable
        cases hreadable
      obtain ⟨j, address, hfault, hin⟩ := ih e.rem.toNat (by omega) hnext hrun hscript hafter hunreadable rfl
      exact ⟨j + 1, address,
        (runSteps_succ_of_next ((step_engine hrun hscript h.busy).trans hstep) j).trans hfault, hin⟩

/-- Settles O55: the run ends as the atomic operation over the buffer's bytes, or at the byte that is not readable. -/
theorem engineRefinesTheAtomicOperation : Obligations.EngineRefinesTheAtomicOperation := by
  intro s a n h hfit
  have hsumming := h.summing hfit
  have hrem : s.eng.rem = n := by rw [h.eng]
  constructor
  · intro hread
    obtain ⟨j, hj, e, hrun⟩ := hsumming.run_operation h.running h.script hread
    rw [hrem] at hj hrun
    exact ⟨j, hj, _, hrun, rfl⟩
  · rintro ⟨k, hk, hunreadable⟩
    refine hsumming.toLatched.run_to_fault h.running h.script hk ?_ hunreadable
    rw [hrem]
    omega

end Sys2Proof.Machine

/-! PROOFS. The family of 60_exceptions.md: where a model fault comes from. -/

namespace Sys2Proof.Machine

/-! ### What a faulting step is (R211, R212)

Only two agents can fault: the host running the transaction it takes, and the engine. -/

/-- A host's turn that faults runs the transaction it takes. -/
theorem hostTurn_fault {s : State} {f : Fault} (h : (hostTurn s).outcome = .fault f) :
    ∃ a v, s.take = some (a, v) ∧ exec (decode a) v = .fault f := by
  unfold hostTurn at h
  split at h
  · cases h
  · split at h
    · next a v htake => exact ⟨a, v, htake, h⟩
    · cases h

/-- The turns from outside the block never fault: a fault is the host's transaction or the engine's step. -/
theorem step_fault {s : State} {f : Fault} (hrun : s.running) (h : step s = .fault f) :
    (s.nextTurn.1 = .engine ∧ engineStep (s.setScript s.script.tail) = .fault f) ∨
    (s.nextTurn.1 = .host ∧ ∃ a v, (s.setScript s.script.tail).take = some (a, v) ∧
      exec (decode a) v = .fault f) := by
  rw [step_of_running hrun, State.nextTurn_snd] at h
  cases ht : s.nextTurn.1 with
  | host =>
    rw [ht] at h
    exact .inr ⟨rfl, hostTurn_fault h⟩
  | engine =>
    rw [ht] at h
    exact .inl ⟨rfl, h⟩
  | reset | issue | agentWrite | hostStore | hostClean =>
    rw [ht] at h
    cases h

/-- Some address the enabled step reads is not readable. -/
theorem exists_unreadable_of_not_allReadable {s : State}
    (h : allReadable s.platform s.eng.ptr.toNat (engineReadSize s) = false) :
    ∃ a ∈ engineReadAddresses s, readable s.platform a = false := by
  obtain ⟨k, hk, hread⟩ := (allReadable_eq_false_iff _ _ _).1 h
  exact ⟨s.eng.ptr.toNat + k, List.mem_range'_1.2 ⟨Nat.le_add_right _ _, Nat.add_lt_add_left hk _⟩, hread⟩

/-- Settles O29: a faulting step is the engine's, with MF1, or an idle START, with MF2; taking the turn and the
transaction leaves BUSY, ADDR and LEN as they were. -/
theorem modelFaultsComeOnlyFrom : Obligations.ModelFaultsComeOnlyFrom := by
  intro s f hrun h
  rcases step_fault hrun h with ⟨hn, hengine⟩ | ⟨hn, a, v, htake, hexec⟩
  · obtain ⟨hb, hread, hf⟩ := engineStep_fault hengine
    rw [State.stepReadAddresses_of_engine hn]
    have hunreadable := exists_unreadable_of_not_allReadable hread
    exact .inl ⟨hn, hb, hf, hunreadable⟩
  · obtain ⟨hstart, hb, hwraps, hf⟩ := exec_fault hexec
    rw [State.take_some htake] at hb hwraps hf
    rw [State.take_setScript, Option.map_eq_some_iff] at htake
    obtain ⟨⟨c, w⟩, htaken, heq⟩ := htake
    obtain ⟨rfl, -⟩ := Prod.mk.inj heq
    exact .inr ⟨hn, hb, hf, (bufferWraps_iff _ _).1 hwraps, c, w, htaken, hstart⟩

end Sys2Proof.Machine

/-! PROOFS. The family of 70_reset_and_hazards.md: what the platform's reset leaves, the host whose transaction it
discarded, and the operation that no transaction disturbs. -/

namespace Sys2Proof.Machine

/-! ### The reset turn (R240, R241) -/

theorem step_reset {s : State} {busPath : Bool} {rest : List Turn} (hrun : s.running)
    (hs : s.script = .reset busPath :: rest) : step s = .next (resetTurn busPath (s.setScript rest)) :=
  step_of_script hrun hs

theorem runSteps_one_of_idle_engine {s : State} {rest : List Turn} (hrun : s.running)
    (hs : s.script = .engine :: rest) (hb : s.busy = false) : runSteps 1 s = .next (s.setScript rest) :=
  runSteps_succ_of_next (idleEngineHasNoStep s rest hrun hs hb).1 0

/-- Settles O44: each field is a row of the reset, and the engine of the block it leaves is idle. -/
theorem resetTurnAbandonsTheOperation : Obligations.ResetTurnAbandonsTheOperation := by
  intro s rest busPath hrun hs
  refine ⟨_, step_reset hrun hs, rfl, rfl, rfl, rfl, rfl, rfl, rfl, rfl, rfl, rfl, rfl, fun rest' => ?_⟩
  exact runSteps_one_of_idle_engine hrun rfl rfl

/-! ### The host that waits for a discarded transaction (R241, U10; log entry 9) -/

/-- Without the bus path a reset leaves a waiting or stuck host stuck, and with it none (R241). -/
@[simp] theorem resetTurn_hostStuck (busPath : Bool) (s : State) :
    (resetTurn busPath s).hostStuck = (!busPath && (s.hostStuck || s.pending.isSome)) := rfl

theorem exec_next_hostStuck {i : Instr} {s t : State} (h : exec i s = .next t) : t.hostStuck = s.hostStuck := by
  rcases exec_next h with ⟨_, _, rfl⟩ | ⟨_, _, rfl⟩ | ⟨_, _, rfl⟩ | ⟨_, rfl⟩ | rfl | ⟨_, _, _, _, rfl⟩ <;> rfl

theorem engineStep_next_hostStuck {s t : State} (h : engineStep s = .next t) : t.hostStuck = s.hostStuck := by
  rcases engineStep_next h with ⟨_, rfl⟩ | ⟨_, _, _, rfl⟩ | ⟨_, _, _, rfl⟩ | ⟨_, _, rfl⟩ | ⟨_, _, rfl⟩ <;> rfl

/-- Only a reset changes whether the host is stuck. -/
theorem step_next_hostStuck {s t : State} (h : step s = .next t) :
    t.hostStuck = s.hostStuck ∨
      ∃ b, s.nextTurn.1 = .reset b ∧ t.hostStuck = (!b && (s.hostStuck || s.pending.isSome)) := by
  rcases step_next_block h with ⟨_, a, q, v, _, hexec⟩ | ⟨_, heng⟩ | ⟨b, hn, rfl⟩ | ⟨q, m, c, rfl⟩
  · have hsame := exec_next_hostStuck hexec
    exact .inl hsame
  · have hsame := engineStep_next_hostStuck heng
    exact .inl hsame
  · exact .inr ⟨b, hn, rfl⟩
  · exact .inl rfl

/-- A stuck host takes, issues and stores nothing: its turn is only used up. -/
theorem step_of_hostStuck {s : State} {turn : Turn} {rest : List Turn} (hrun : s.running)
    (hstuck : s.hostStuck = true) (hs : s.script = turn :: rest)
    (hturn : turn = .host ∨ (∃ z w p d, turn = .issue z w p d) ∨ ∃ a b, turn = .hostStore a b) :
    step s = .next (s.setScript rest) := by
  rw [step_of_script hrun hs]
  rcases hturn with rfl | ⟨z, w, p, d, rfl⟩ | ⟨a, b, rfl⟩
  · simp [turnMove, Move.outcome, hostTurn, hstuck]
  · simp [turnMove, Move.outcome, issueTurn, hstuck]
  · simp [turnMove, Move.outcome, hostStoreTurn, hstuck]

/-- Settles O45: a reset's mark is read off `resetTurn_hostStuck`, a stuck host's turn is only used up, and no step but
a reset changes the mark. -/
theorem discardedTransactionLeavesTheHostStuck : Obligations.DiscardedTransactionLeavesTheHostStuck := by
  refine ⟨fun s rest hrun => ⟨fun a hp hs => ?_, fun b hp hs => ?_, fun hs => ?_, fun turn hstuck hs hturn => ?_⟩,
    fun s t hstuck hstep hn => ?_⟩
  · exact ⟨_, step_reset hrun hs, by simp [hp]⟩
  · exact ⟨_, step_reset hrun hs, by simp [hp]⟩
  · exact ⟨_, step_reset hrun hs, rfl⟩
  · exact step_of_hostStuck hrun hstuck hs hturn
  · rcases step_next_hostStuck hstep with hsame | ⟨b, hreset, hmark⟩
    · exact hsame.trans hstuck
    · cases b with
      | true => exact absurd hreset hn
      | false => simpa [hstuck] using hmark

/-! ### A running operation (R245, R246) -/

theorem holdable_of_isStart {i : Instr} (h : isStart i = true) : holdable i = true := by
  cases i with
  | start | wrCtrl => rfl
  | _ => cases h

/-- Settles O23: no transaction writes RES or memory, one that writes a flag or the engine needs BUSY = 0, and START
is held. -/
theorem transactionsDoNotTouchARunningOperation : Obligations.TransactionsDoNotTouchARunningOperation := by
  refine fun i s hb => ⟨fun t h => ?_, fun hstart => exec_of_holdable_busy (holdable_of_isStart hstart) hb⟩
  obtain ⟨heng, hbusy⟩ := exec_next_of_busy h hb
  obtain ⟨hres, -, -⟩ := exec_next_res_records h
  have hdone : t.done = s.done := by
    rcases exec_next_flags h with ⟨_, hd⟩ | ⟨_, hidle, _⟩
    · exact hd
    · cases hb.symm.trans hidle
  exact ⟨heng, hres, hbusy.trans hb, hdone, exec_next_mem h⟩

/-- Settles O49: a step that changes a flag and is no reset sets BUSY, as START does, or DONE, as FINISH does. -/
theorem pollingNeverReadsZero : Obligations.PollingNeverReadsZero := by
  intro s t hflags hstep hn
  by_cases hsame : t.busy = s.busy ∧ t.done = s.done
  · obtain ⟨hbusy, hdone⟩ := hsame
    rwa [hbusy, hdone]
  · rcases onlyStartFinishAndResetWriteFlags s t hstep hsame with
      ⟨_, _, hbusy, _⟩ | ⟨_, _, _, _, hdone⟩ | ⟨b, hreset, _⟩
    · exact .inl hbusy
    · exact .inr hdone
    · exact absurd hreset (hn b)

end Sys2Proof.Machine
